-- ==== Sys2Proof/Word.lean ====
section
/-!
DEFINITION. Word types of the VXT-7 and the sparse maps that hold its memories and register arrays.
-/

namespace Sys2Proof

/-- A byte of any memory of the module (R29: multi-byte values are little-endian). -/
abbrev Byte := BitVec 8

/-- A sparse map from keys to values in one canonical form: keys strictly rising and no entry that
holds the map's default value, which is what an unlisted key reads as. -/
abbrev SMap (α : Type) := List (Nat × α)

/-- A byte memory: a sparse map of `Host.Cell` shape whose unlisted addresses read as zero. -/
abbrev Mem := List (Nat × Byte)

end Sys2Proof
end

