-- ==== Sys2Proof/Syntax.lean ====
section
/-!
DEFINITION. The commands of the module: one constructor of `Instr` per row of spec/opcode_table.json,
with the operands that the rules of each row name. A queue command's binary format is private (R4),
so its fields come as operands, in the names of Gartur (R183 to R197).
-/

namespace Sys2Proof

/-- The four engine queues of a core (R174). -/
inductive Queue where
  | l | m | v | s
  deriving DecidableEq, Repr

/-- A field that may carry loop steps (R179): the value in use is `base` plus each open level's index
times its signed 32-bit step, level 0 innermost. -/
structure Stepped where
  base : Int
  st0 : BitVec 32 := 0
  st1 : BitVec 32 := 0
  st2 : BitVec 32 := 0
  st3 : BitVec 32 := 0
  deriving DecidableEq, Repr

/-- A bench operand (R187): BASE and up to three dimensions of (SIZE, byte STRIDE), innermost first. -/
structure BenchOp where
  base : Stepped
  dims : List (Nat × Int)
  deriving DecidableEq, Repr

/-- A memory error that a queue command meets as it issues: in the bench word at a byte address (R231) or in a joist row
(R233). A single-bit error, `bit` its place in the coded word, is corrected; `double` is a double-bit one. -/
inductive Upset where
  | bench (addr : Nat) (bit : Nat) (double : Bool)
  | joist (row : Nat) (bit : Nat) (double : Bool)
  deriving DecidableEq, Repr

/-- What every queue command carries (R183), with the core and queue that issue it. `lines` is the
number of 64-byte lines that the command takes in the private binary format (R175); `upsets` are the memory errors that
it meets. -/
structure QCmd where
  core : Nat
  queue : Queue
  tag : BitVec 32
  waitA : Option Nat
  consA : Bool
  waitB : Option Nat
  consB : Bool
  done : Option Nat
  trace : Bool
  lines : Nat
  upsets : List Upset
  deriving DecidableEq, Repr

/-- ROUND of R39; SR is for conversions only. -/
inductive RoundMode where
  | rne | rz | rd | ru | sr
  deriving DecidableEq, Repr

/-- The fields of a converting command (R39, R130, R144). -/
structure Conv where
  round : RoundMode
  sat : Bool
  stream : BitVec 32
  gslot : Nat
  deriving DecidableEq, Repr

/-- A tensor that a command names either through a descriptor handle or as a bench operand with its
own format, panel bit and scale bytes. -/
inductive TensorArg where
  | desc (handle : Stepped)
  | bench (op : BenchOp) (fmt : Nat) (panel : Bool) (scale : Option BenchOp)
  deriving DecidableEq, Repr

/-- A source of a V-queue command (R108). -/
inductive VSrc where
  | bench (op : BenchOp) (fmt : Nat) (panel : Bool) (scale : Option BenchOp)
  | vx (r : Nat)
  | scalar (bits : BitVec 64)
  | none
  deriving DecidableEq, Repr

/-- The destination of a V-queue command (R108, R564); `fmt` is the format converted to. -/
inductive VDst where
  | bench (op : BenchOp) (fmt : Nat) (panel : Bool) (scale : Option BenchOp)
  | vx (r : Nat) (fmt : Nat) (panel : Bool)
  deriving DecidableEq, Repr

/-- PRED of R112. -/
inductive Pred where
  | none | merge | zero
  deriving DecidableEq, Repr

/-- The compare conditions of VCMP and VICMP (R109). -/
inductive Cond where
  | eq | ne | lt | le | un
  deriving DecidableEq, Repr

/-- FUNC of VFUNC (R114). -/
inductive RefFunc where
  | exp | log | tanh | sigmoid | gelu
  deriving DecidableEq, Repr

/-- The fields of every V-queue command (R193). Fields that an operation does not use are ignored. -/
structure VCmd where
  prec64 : Bool
  n : Nat
  a : VSrc
  b : VSrc
  c : VSrc
  dst : VDst
  rnd : RoundMode
  conv : Conv
  ztid : Nat
  zorg : Stepped
  pred : Pred
  mask : Stepped
  rslot : Nat
  openRec : Bool
  keep : Bool
  redoOnly : Bool
  r : Nat
  d : Nat
  indexBase : Nat
  func : RefFunc
  cond : Cond
  deriving DecidableEq, Repr

/-- A share of a reduction: blocks of joist rows in one tile, or span records in the bench (R191). -/
inductive Share where
  | rows (joistBase : Nat) (blocks : Nat)
  | records (addr : Stepped) (n : Nat)
  deriving DecidableEq, Repr

/-- LOAD (R190). -/
structure LoadF where
  src : Stepped
  dst : BenchOp
  mitre : Bool
  scaleDst : Option Stepped
  scaleStride : Int
  deriving DecidableEq, Repr

/-- GATHER (R218). -/
structure GatherF where
  src : Stepped
  idx : BenchOp
  dst : BenchOp
  mitre : Bool
  deriving DecidableEq, Repr

/-- MATMUL (R82). `fmtB` is the format that the encoding names for B (R567). R27 speaks of presence and freeze masks in the
matrix engine too, and R82 gives the command no field of them: it has none (DESIGN CHOICE, log entry 39). -/
structure MatmulF where
  fmt : Nat
  fmtB : Nat
  aAddr : Stepped
  aStride : Int
  bAddr : Stepped
  bStride : Int
  aPanel : Nat
  bPanel : Nat
  aScale : Stepped
  aScaleStride : Int
  bScale : Stepped
  bScaleStride : Int
  mSize : Nat
  nSize : Nat
  kc : Nat
  joistBase : Nat
  rslot : Nat
  openRows : Bool
  sister : Bool
  redoOnly : Bool
  deriving DecidableEq, Repr

/-- STORE (S queue). -/
structure StoreF where
  src : BenchOp
  srcFmt : Nat
  dst : Stepped
  conv : Conv
  deriving DecidableEq, Repr

/-- MODE of SCATTER (R221). -/
inductive ScatterMode where
  | unique | sum | max | min
  deriving DecidableEq, Repr

/-- SCATTER (R221). -/
structure ScatterF where
  src : BenchOp
  srcFmt : Nat
  idx : BenchOp
  dst : Stepped
  mode : ScatterMode
  indexBase : Nat
  conv : Conv
  deriving DecidableEq, Repr

/-- EPI_OP (R93). -/
inductive EpiOp where
  | none | add | mul
  deriving DecidableEq, Repr

/-- EPILOGUE (R92). -/
structure EpilogueF where
  joistBase : Nat
  mSize : Nat
  nSize : Nat
  rslot : Nat
  op : EpiOp
  opnd : Option TensorArg
  dst : TensorArg
  conv : Conv
  keep : Bool
  bound : BitVec 16
  checkFault : Bool
  ztid : Nat
  zorg : Stepped
  deriving DecidableEq, Repr

/-- RED.PATH (R51). -/
inductive RedPath where
  | survey | hint | integer | s5
  deriving DecidableEq, Repr

/-- SPAN_OPEN (R53). `panel` says that an operand has panels (R51); `indexSpace` is the number of
positions of a maximum or minimum reduction (R69). -/
structure SpanOpenF where
  rslot : Nat
  path : RedPath
  w128 : Bool
  hall : Bool
  single : Bool
  fmt : Nat
  l0 : Int
  k : Nat
  flagSurvey : Nat
  flagDone : Nat
  collective : BitVec 32
  cores : BitVec 160
  panel : Bool
  indexSpace : Option Nat
  deriving DecidableEq, Repr

/-- ZSTEP (R138). -/
inductive ZstepF where
  | set (v : BitVec 64)
  | inc
  deriving DecidableEq, Repr

/-- ZFILL (R141); `mask` selects MODE = MASK. -/
structure ZfillF where
  dst : Stepped
  n : Nat
  ztid : Nat
  zorg : Stepped
  stream : BitVec 32
  mask : Bool
  thresh : Nat
  deriving DecidableEq, Repr

/-- GAUGE_RESET (R147). -/
structure GaugeResetF where
  gslot : Nat
  fmt : Nat
  panel : Bool
  ewidth : Nat
  ebase : BitVec 16
  deriving DecidableEq, Repr

/-- OPT of PLANE (R157). -/
inductive Optim where
  | sgd | nesterov | adam
  deriving DecidableEq, Repr

/-- PLANE (R157). Constants are binary32 bit patterns. -/
structure PlaneF where
  opt : Optim
  g : Stepped
  p : Stepped
  off : Option Stepped
  mm : Stepped
  vv : Option Stepped
  firstPanel : Nat
  nPanels : Nat
  pres : Option Nat
  presClear : Bool
  frz : Option Nat
  gscale : BitVec 32
  nlr : BitVec 32
  wd : BitVec 32
  mu : BitVec 32
  b1 : BitVec 32
  c1 : BitVec 32
  b2 : BitVec 32
  c2 : BitVec 32
  bc1 : BitVec 32
  bc2 : BitVec 32
  eps : BitVec 32
  lambda : Int
  roundP : RoundMode
  satP : Bool
  roundS : RoundMode
  satS : Bool
  stream : BitVec 32
  gslotP : Nat
  gslotM : Nat
  gslotV : Nat
  skip : Bool
  deriving DecidableEq, Repr

/-- The deck's atomic operations (R263). -/
inductive AtomicOp where
  | ld | st | iadd | iadds | ior | iandn | swap | cas | maxi | mini | sadd | sinit
  deriving DecidableEq, Repr

/-- ATOMIC (R268). -/
structure AtomicF where
  op : AtomicOp
  width : Nat
  dst : Stepped
  element : Stepped
  n : Nat
  opnd : Stepped
  cmp : Stepped
  ret : Option Stepped
  bmask : BitVec 64
  rslot : Nat
  guard : Bool
  deriving DecidableEq, Repr

/-- A pattern of errors that a burst read meets: (symbol 0 to 35, 16-bit value xored onto it) (R239). -/
abbrev BurstErr := List (Nat × BitVec 16)

/-- The sensors of R554. -/
inductive Sensor where
  | compute0 | compute1 | io | hbm | stage | coolant
  deriving DecidableEq, Repr

/-- A plain access that a home deck serves (R17, R260): a read, or a write of the bytes that `mask`
selects in a line. `tagErr` is a tag double-bit error met on the way (R490), with whether the shadow
tag is good, and `tagCe` the bit of a single-bit tag error (R262); `dataErr` is an error in a word of the line as the deck
holds it (R262): its bit, and whether it is a double-bit one; `burst` is the error pattern that a fill from HBM meets
(R240); `caFail` counts command-and-address parity failures in a row of the fill, `wbFail` those of the write-back of the
line that makes room (R241). -/
structure DeckF where
  host : Bool
  line : Nat
  write : Option (BitVec 512 × BitVec 64)
  tagErr : Option Bool
  tagCe : Option Nat
  dataErr : Option (Nat × Bool)
  burst : BurstErr
  caFail : Nat
  wbFail : Nat
  ctx : Option Nat
  deriving DecidableEq, Repr

/-- Why an access of a Dovetail channel meets a bus error (R303). -/
inductive BusErr where
  | unreachable | hostError | egress
  deriving DecidableEq, Repr

/-- A command to the module: one constructor per row of the table of operations and events. -/
inductive Instr where
  -- start-up, power and pins (18, 22)
  | powerOn (vin10mV : Nat)
  | railsGood
  | fuseRead
  | loadAndVerify
  | dieRelease (dieOk : Bool)
  | hbmTraining (failed : List Nat)
  | hbmZeroing
  | hostLinkTraining (width : Nat) (rate : Nat) (cxl31 : Bool)
  | fabricTraining (trained : List Nat)
  | ready
  | inputLoss (vin10mV : Nat)
  | perstAssert
  | perstDeassert
  | mrstN (lowNs : Nat)
  | mrstNRelease
  | surpriseRemoval
  | thermalThrottle (sensor : Sensor) (temp16 : Int)
  | thermalTrip (sensor : Sensor) (temp16 : Int)
  | powerCapAdjust (watts : Nat)
  | pwrGuard (watts : Nat) (forNs : Nat)
  | ppsIn
  | tcodeFrame (bytes : List Byte)
  | extrefLoss (cause : Nat)
  | ppsOut
  -- management bus (22, R558)
  | smState (pecOk : Bool)
  | smIdent (pecOk : Bool)
  | smTemps (pecOk : Bool)
  | smPower (pecOk : Bool)
  | smVin (pecOk : Bool)
  | smThermal (pecOk : Bool)
  | smAlertClr (pecOk : Bool) (value : Byte)
  | smRestart (pecOk : Bool) (value : Byte)
  -- L and M queues
  | load (q : QCmd) (f : LoadF)
  | gather (q : QCmd) (f : GatherF)
  | spanSurvey (q : QCmd) (rslot : Nat) (a : Option BenchOp) (b : Option BenchOp)
  | jrawLoad (q : QCmd) (src : Stepped) (joistBase : Nat) (rows : Nat)
  | matmul (q : QCmd) (f : MatmulF)
  | spanClose (q : QCmd) (rslot : Nat) (share : Share)
  -- V queue
  | vadd (q : QCmd) (f : VCmd)
  | vsub (q : QCmd) (f : VCmd)
  | vmul (q : QCmd) (f : VCmd)
  | vfma (q : QCmd) (f : VCmd)
  | vmin (q : QCmd) (f : VCmd)
  | vmax (q : QCmd) (f : VCmd)
  | vminnum (q : QCmd) (f : VCmd)
  | vmaxnum (q : QCmd) (f : VCmd)
  | vcmp (q : QCmd) (f : VCmd)
  | vsel (q : QCmd) (f : VCmd)
  | vabs (q : QCmd) (f : VCmd)
  | vneg (q : QCmd) (f : VCmd)
  | vcopysign (q : QCmd) (f : VCmd)
  | vcvt (q : QCmd) (f : VCmd)
  | vrcp (q : QCmd) (f : VCmd)
  | vrsqrt (q : QCmd) (f : VCmd)
  | vexp2 (q : QCmd) (f : VCmd)
  | vlog2 (q : QCmd) (f : VCmd)
  | vdiv (q : QCmd) (f : VCmd)
  | vsqrt (q : QCmd) (f : VCmd)
  | viadd (q : QCmd) (f : VCmd)
  | visub (q : QCmd) (f : VCmd)
  | viand (q : QCmd) (f : VCmd)
  | vior (q : QCmd) (f : VCmd)
  | vixor (q : QCmd) (f : VCmd)
  | vishl (q : QCmd) (f : VCmd)
  | vishr (q : QCmd) (f : VCmd)
  | vicmp (q : QCmd) (f : VCmd)
  | vspan (q : QCmd) (f : VCmd)
  | vspanOut (q : QCmd) (f : VCmd)
  | vredmax (q : QCmd) (f : VCmd)
  | vredmin (q : QCmd) (f : VCmd)
  | vfunc (q : QCmd) (f : VCmd)
  -- S queue
  | store (q : QCmd) (f : StoreF)
  | scatter (q : QCmd) (f : ScatterF)
  | epilogue (q : QCmd) (f : EpilogueF)
  | jrawStore (q : QCmd) (dst : Stepped) (joistBase : Nat) (rows : Nat)
  | spanOpen (q : QCmd) (f : SpanOpenF)
  | spanAdd (q : QCmd) (rslot : Nat) (share : Share) (dst : Stepped) (element : Stepped)
  | spanRelease (q : QCmd) (rslot : Nat)
  | zstep (q : QCmd) (f : ZstepF)
  | zfill (q : QCmd) (f : ZfillF)
  | gaugeReset (q : QCmd) (f : GaugeResetF)
  | plane (q : QCmd) (f : PlaneF)
  | planerPanel (cluster : Nat)
  | atomic (q : QCmd) (f : AtomicF)
  | glueBegin (q : QCmd) (status : Stepped)
  | glueCommit (q : QCmd) (fail : Option Nat)
  | dvPost (q : QCmd) (engine : Nat) (channel : Nat) (addr : Nat)
  -- control commands of any queue
  | fset (q : QCmd) (flags : List Nat)
  | fclr (q : QCmd) (flags : List Nat)
  | fwait (q : QCmd) (flags : List (Nat × Bool))
  | clamp (q : QCmd) (qmask : BitVec 4) (id : Nat)
  | twait (q : QCmd) (t : Stepped) (frac : BitVec 16) (launchMode : Bool) (lateFault : Bool)
  | loop (q : QCmd) (count : Nat) (body : Nat) (bodyLines : Nat)
  | tmark (q : QCmd)
  | nop (q : QCmd)
  | qend (q : QCmd)
  -- engine progress
  | commandComplete (core : Nat) (queue : Queue)
  | qstall (core : Nat) (queue : Queue)
  | deckAccess (f : DeckF)
  | glueBackoff (id : Nat)
  | glueClamped (id : Nat)
  | glueApply (id : Nat) (cluster : Nat) (ok : Bool) (oldLost : Bool)
  | glueRelease (id : Nat)
  | glueTimeout (id : Nat)
  | copy (chan : Nat) (beats : Nat) (err : Option BusErr)
  | send (chan : Nat) (packets : Nat) (err : Option BusErr)
  | mint (chan : Nat)
  | resume (chan : Nat)
  | flush (chan : Nat)
  | dvComplete (chan : Nat)
  | dvRetry (chan : Nat) (err : Option BusErr)
  | dvPacePoll (chan : Nat)
  | dvGrant (engine : Nat) (err : Option BusErr)
  -- fabric
  | egressGrant (port : Nat)
  | dataPacketForward (port : Nat) (flits : List Byte)
  | request
  | reply
  | collective
  | metaCombine
  | xferTimeout (smod : Nat) (sctx : Nat) (xid : BitVec 32)
  | tombstoneExpiry
  | flagTombExpiry (cluster : Nat) (pflag : Nat)
  | packetExpiry (port : Nat)
  | packetResidence (port : Nat)
  | timeMarkSend (port : Nat)
  | timeMark (port : Nat) (flit : List Byte)
  | portIneligible (port : Nat)
  | holdoverLimit
  | holdExpiry
  | ttApply
  | rtApply
  | clockPlanApply
  | linkDetect (port : Nat) (lanesOk : Nat) (peerSerial : BitVec 64) (peerPort : Nat)
  | linkRetrain (port : Nat) (cause : Nat) (lanesOk : Nat)
  | linkDown (port : Nat)
  | frame (port : Nat) (bytes : List Byte)
  | identSend (port : Nat)
  | ident (port : Nat) (flit : List Byte)
  | creditSend (port : Nat)
  | credit (port : Nat) (flit : List Byte)
  | retrain (port : Nat) (flit : List Byte)
  | lanes (port : Nat) (flit : List Byte)
  | mgmtWrite (port : Option Nat) (flit : List Byte)
  | mgmtRead (port : Option Nat) (flit : List Byte)
  | mgmtReply (port : Option Nat) (flit : List Byte)
  | mgmtAssign (port : Option Nat) (flit : List Byte)
  | portRouted (port : Option Nat) (flit : List Byte)
  | portRetrain (port : Option Nat) (flit : List Byte)
  | rtDecl (port : Option Nat) (flit : List Byte)
  | ttDecl (port : Option Nat) (flit : List Byte)
  | routingEntryStage (port : Option Nat) (flit : List Byte)
  | timetableStage (port : Option Nat) (flit : List Byte)
  | fmCmd (count : Nat)
  | fmReplyTimeout (slot : Nat)
  -- host port
  | doorbellReread (ring : Nat)
  | descriptorTake (ring : Nat)
  | submissionGroup (ring : Nat)
  | nopDescriptor (ring : Nat)
  | launch (ring : Nat)
  | launchStart (ctx : Nat) (seq : BitVec 32)
  | flagSet (ring : Nat)
  | flagClr (ring : Nat)
  | flagWait (ring : Nat)
  | flagMap (ring : Nat)
  | flagUnmap (ring : Nat)
  | descMint (ring : Nat)
  | write64 (ring : Nat)
  | xlateFlush (ring : Nat)
  | ctxCreate
  | ctxDestroy
  | ctxSwitch
  | priorityPreempt (ctx : Nat)
  | switchDrainDone
  | clockPlan
  | completionRecord (ring : Nat)
  | hostLinkDown
  | hostLinkUp
  | hostLink (width : Nat) (rate : Nat)
  | hostSnoop (line : Nat) (store : Option (BitVec 512 × BitVec 64))
  | hostAccessTimeout (line : Nat) (cause : Nat) (write : Bool)
  | windowRead (pa : Nat)
  | windowWrite (pa : Nat) (data : BitVec 512) (mask : BitVec 64)
  | hdmCommit
  -- SPDM (R465)
  | getVersion
  | getCapabilities
  | negotiateAlgorithms (sm2 : Bool) (sm3 : Bool) (dmtf : Bool)
  | getDigests
  | getCertificate (slot : Nat) (offset : Nat) (length : Nat)
  | challenge (slot : Nat) (nonce : BitVec 256)
  | getMeasurements (index : Nat) (sign : Bool) (nonce : BitVec 256)
  | setCertificate (slot : Nat) (chain : List Byte)
  | chunkSend (handle : Nat) (seqNo : Nat) (last : Bool) (bytes : List Byte)
  | chunkGet (handle : Nat) (seqNo : Nat)
  | unsupportedRequest (code : Nat)
  -- pier mailbox (R538)
  | imgBegin
  | imgData
  | imgCommit
  | moduleReset
  | ownerEnrol
  | rollbackAdvance
  | dbgNonce
  | dbgUnlock
  | quiesce
  | scanNext
  | scanCore
  | scanStatus
  | hangTake
  | hangRead
  | hangRelease
  | traceRead
  | mapoutClear
  | hbmTest
  | margin (sweep : List Byte)
  | mboxBadcmd (code : Nat)
  | overrun (code : Nat)
  | hangRecordDone
  | pierRestart
  | suspectCoreScan (core : Nat)
  | scanDone (pass : Bool) (pattern : BitVec 32)
  -- resets (R498)
  | rstEngine (index : BitVec 16)
  | rstCore (index : BitVec 16)
  | rstCluster (index : BitVec 16)
  | rstModule
  | rstHoldNext
  | resetDone (unit : BitVec 16)
  | resetEscalate (unit : BitVec 16)
  | railCycle
  | accessTimeout (unit : BitVec 16) (silent : BitVec 16) (ctx : Option Nat) (bench : Option (Nat × Nat)) (hbmLine : Option Nat) (chan : Option Nat) (write : Bool)
  -- registers and records
  | hbmFenceGo (value : BitVec 48)
  | patrolScrub (line : Nat) (burst : BurstErr) (raced : Bool)
  | attnClear (value : BitVec 48)
  | ktReadLo
  | adminEn (value : BitVec 48)
  | errEn (value : BitVec 48)
  | kzEn (value : BitVec 48)
  | registerWrite (offset : Nat) (value : BitVec 64) (size : Nat)
  | errorRecord
  | coalesceClose
  | lostSummary
  | kzLost
  | mboxCommandEnd
  | controlPacketForward (port : Nat) (flit : List Byte)
  deriving DecidableEq, Repr

end Sys2Proof
end

