-- ==== Sys2Proof/Config.lean ====
section
/-!
DEFINITION. What the spec leaves open: free values, and the cryptographic functions that it names
without defining. No constant of this file has a body that Lean can evaluate.
-/

namespace Sys2Proof

/-- A byte that the spec leaves undefined, by draw number (R10, R201). Log entry 10. -/
opaque Config.freeByte : Nat → Byte

/-- A number that the spec does not give, by draw number: debug nonces (R470), scan pattern data,
margin figures. Log entry 10. -/
opaque Config.freeNat : Nat → Nat

/-- SM3 (R458, R516), named by the spec and not defined there. Log entry 11. -/
opaque Config.sm3 : List Byte → BitVec 256

/-- SM2 signature check over a digest (R458, R465): public key, digest, signature. Log entry 11. -/
opaque Config.sm2Verify : List Byte → BitVec 256 → List Byte → Bool

/-- SM2 signature of the module's identity key (R464): key, digest. Log entry 11. -/
opaque Config.sm2Sign : Nat → BitVec 256 → List Byte

/-- The Holsever firmware key that the boot ROM of the pier controller holds (R459). Log entry 11. -/
opaque Config.holseverKey : Nat → Byte

/-- The Holsever debug key, under which unlock tokens of issuer 0 verify (R469, R470). Log entry 11. -/
opaque Config.debugKey : Nat → Byte

/-- The boot ROM of the pier controller, measured first in block 1 (R466). Log entry 12. -/
opaque Config.bootRom : Nat → Byte

/-- The fuse image of measurement block 1 (R466), whose layout the spec does not give: trim and options, harvest map,
both rollback counters, OWNER_DIGEST, both debug limits. Log entry 12. -/
opaque Config.fuseImage : Nat → BitVec 160 → Nat → Nat → Option (BitVec 256) → Nat → Nat → List Byte

/-- HBM.INTERLEAVE as the body of the options section holds it, true for DIE (R236, R457): the body's layout is not
given. Log entry 13. -/
opaque Config.dieInterleave : List Byte → Bool

/-- The body of a hang record's section: the spec lists what a section of a unit holds and lays out none of it (R506). Log
entry 42. -/
opaque Config.hangLayout : Nat → List Nat → List Byte

end Sys2Proof
end

