-- ==== Sys2Proof/Machine/Bits.lean ====
section
/-!
DEFINITION. Bit fields, little-endian bytes (R29), two's complement and exact integer helpers.
-/

namespace Sys2Proof.Machine

/-- Bits [hi:lo] of `v`. -/
def bitsOf (v hi lo : Nat) : Nat := (v >>> lo) % 2 ^ (hi + 1 - lo)

/-- Bit `i` of `v`. -/
def bitOf (v i : Nat) : Bool := (v >>> i) % 2 == 1

/-- `v` with bits [hi:lo] replaced by the low bits of `x`. -/
def setBits (v hi lo x : Nat) : Nat :=
  v - (bitsOf v hi lo) * 2 ^ lo + (x % 2 ^ (hi + 1 - lo)) * 2 ^ lo

/-- A field `x` of `w` bits at bit `lo`, for words built as sums of fields. -/
def fieldAt (x w lo : Nat) : Nat := (x % 2 ^ w) * 2 ^ lo

/-- 1 for true, 0 for false. -/
def bit01 (b : Bool) : Nat := if b then 1 else 0

/-- The unsigned value of a `w`-bit two's-complement pattern of `v`. -/
def toTwos (w : Nat) (v : Int) : Nat := (v % (2 ^ w : Nat)).toNat

/-- The signed value of the low `w` bits of `v`. -/
def ofTwos (w v : Nat) : Int :=
  let u := v % 2 ^ w
  if 2 * u < 2 ^ w then (u : Int) else (u : Int) - (2 ^ w : Nat)

/-- Little-endian bytes of `v` (R29), `n` of them. -/
def leBytes : Nat → Nat → List Byte
  | 0, _ => []
  | n + 1, v => BitVec.ofNat 8 v :: leBytes n (v / 256)

/-- The number that little-endian bytes spell (R29). -/
def ofLe : List Byte → Nat
  | [] => 0
  | b :: bs => b.toNat + 256 * ofLe bs

/-- The little-endian number of `n` bytes at `off` of a byte list. -/
def leAt (bs : List Byte) (off n : Nat) : Nat := ofLe ((bs.drop off).take n)

/-- `bs` with `n` little-endian bytes of `v` at `off`. -/
def putLe (bs : List Byte) (off n v : Nat) : List Byte :=
  bs.take off ++ leBytes n v ++ bs.drop (off + n)

/-- `bs` cut or padded with zeros to `n` bytes. -/
def padTo (n : Nat) (bs : List Byte) : List Byte :=
  (bs ++ List.replicate (n - bs.length) 0).take n

/-- Number of bits of `v` that are 1 among its low `n`. -/
def popCount : Nat → Nat → Nat
  | 0, _ => 0
  | n + 1, v => v % 2 + popCount n (v / 2)

/-- The positions of the bits of `v` that are 1 among its low `n`, ascending from `at0`. -/
def bitList : Nat → Nat → Nat → List Nat
  | 0, _, _ => []
  | n + 1, at0, v => if v % 2 = 1 then at0 :: bitList n (at0 + 1) (v / 2) else bitList n (at0 + 1) (v / 2)

/-- The `w`-bit number whose bits 1 are the positions of the list. -/
def bitMap (l : List Nat) : Nat := l.foldl (fun a i => if bitOf a i then a else a + 2 ^ i) 0

/-- Whether `a` is a multiple of `n`. -/
def aligned (n a : Nat) : Bool := a % n == 0

/-- 2^q as a factor: `m * 2^q` for `q ≥ 0`, else the floor of `m / 2^-q`. -/
def shiftBy (m : Nat) (q : Int) : Nat :=
  if 0 ≤ q then m * 2 ^ q.toNat else m / 2 ^ (-q).toNat

/-- The floor of the integer `m` times 2^q (R47). -/
def floorShift (m : Int) (q : Int) : Int :=
  if 0 ≤ q then m * (2 ^ q.toNat : Nat) else m.fdiv (2 ^ (-q).toNat : Nat)

/-- `a` and `b` of one unit: whether `m * 2^e ≤ m' * 2^e'`. -/
def leScaled (m : Nat) (e : Int) (m' : Nat) (e' : Int) : Bool :=
  if e ≤ e' then decide (m ≤ m' * 2 ^ (e' - e).toNat)
  else decide (m * 2 ^ (e - e').toNat ≤ m')

/-- The least `t` with 2^t ≥ `k`, and 0 for `k ≤ 1`: clog2 of R54. -/
def clog2 (k : Nat) : Nat := if k ≤ 1 then 0 else Nat.log2 (k - 1) + 1

/-- Integer square root by bits, `fuel` being at least the number of result bits. -/
def isqrtBits : Nat → Nat → Nat → Nat
  | 0, _, r => r
  | fuel + 1, n, r =>
    let t := r + 2 ^ fuel
    if t * t ≤ n then isqrtBits fuel n t else isqrtBits fuel n r

/-- The floor of the square root of `n`. -/
def isqrt (n : Nat) : Nat := isqrtBits (Nat.log2 n / 2 + 1) n 0

/-- The bit reversal of the low `n` bits of `v`. -/
def bitRev : Nat → Nat → Nat
  | 0, _ => 0
  | n + 1, v => (v % 2) * 2 ^ n + bitRev n (v / 2)

/-- Cuts a list into pieces of `n`. -/
def chunksOf {α : Type} : Nat → Nat → List α → List (List α)
  | 0, _, _ => []
  | fuel + 1, n, l => if l.isEmpty then [] else l.take n :: chunksOf fuel n (l.drop n)

end Sys2Proof.Machine
end

