-- ==== Sys2Proof/Machine/State.lean ====
section
/-!
DEFINITION. The state of the module, as plain data: every register, memory, queue, buffer, counter,
mode and pin that the spec names, and the queue of waiting commands. Times are keystone times in ns
unless a field says fraction units (2^-16 ns, R338). INVENTORY.md lists the fields with their rules
and reset values.
-/

namespace Sys2Proof.Machine

/-- Why a step stops with a fault. -/
inductive Fault where
  /-- Raised by every meaning whose operand names a unit that the module does not have: a core above
  159 (R15), a cluster above 19, a port above 17, a Dovetail channel above 639 or engine above 39, a
  ring above 4,096, a context above 4,095. Such a command is no event of this hardware. Safe: the
  model stops, nothing about the hardware follows. -/
  | unknownUnit
  deriving DecidableEq, Repr

/-- Why a step refuses a command. -/
inductive Refusal where
  /-- Raised by the dispatcher alone, for a command that has no meaning yet. Safe: nothing follows
  from a refused step. -/
  | notModelled (mnemonic : String)
  deriving DecidableEq, Repr

/-! ### Fuses and flash -/

/-- The fuse block, read at start-up step 3 (R451). Only OWNER_ENROL and ROLLBACK_ADVANCE blow fuses. -/
structure Fuse where
  harvest : BitVec 160 := BitVec.allOnes 160 -- core harvest map, bit c: core c present; 160 bits; 00 R3, 01 R15
  serial : BitVec 64 := 0 -- ID.SERIAL; 64 bits; 18 R464, 21 R528
  ownerDigest : Option (BitVec 256) := none -- OWNER_DIGEST, none while unblown; 256 bits; 18 R459
  rbFirmware : Nat := 0 -- rollback counter of firmware; 64 fuses; 18 R461
  rbConfig : Nat := 0 -- rollback counter of the options section; 64 fuses; 18 R461
  dbgLimitHolsever : Nat := 3 -- fused debug limit of the Holsever key; 0-3; 18 R470
  dbgLimitOwner : Nat := 3 -- fused debug limit of the owner key; 0-3; 18 R470
  trim : Nat := 0 -- trim and options image, bits not laid out; -; 18 R451, R466
  identityKey : Nat := 0 -- SM2 identity private key, no path reads it; 256 bits; 18 R464
  rowsOk : Bool := true -- every fuse row passes its redundancy check; 1 bit; 18 R462
  deriving DecidableEq, Repr

/-- One image slot of the flash (R457). -/
structure Slot where
  header : List Byte := [] -- the 128-byte image header, empty when erased; 128 B; 18 R457
  body : List Byte := [] -- the programmed body bytes; up to 16 MiB; 18 R457
  deriving DecidableEq, Repr

/-- A saved coefficient record of a port (R373). -/
structure Coef where
  port : Nat := 0 -- own port; 0-17; 15 R373
  peerSerial : BitVec 64 := 0 -- key: peer ID.SERIAL; 64 bits; 15 R373
  peerPort : Nat := 0 -- key: peer ID.PORT; 0-17; 15 R373
  seqNo : Nat := 0 -- ID.COEF, sequence of the record; 32 bits; 15 R393
  deriving DecidableEq, Repr

/-- One copy of the state section (R460). -/
structure StateSec where
  valid : Bool := false -- its signature verifies; 1 bit; 18 R460
  seqNo : Nat := 0 -- write sequence; 32 bits; 18 R460
  mapout : BitVec 128 := 0 -- map-out list, bit per channel; 128 bits; 10 R249
  cleared : BitVec 128 := 0 -- entries that the host has cleared, gone at the next module reset; 128 bits; 10 R251
  offline : BitVec 160 := 0 -- offline list, bit per core; 160 bits; 19 R492
  boot : Nat := 0 -- boot counter; -; 18 R457
  scanPtr : Nat := 0 -- scan rotation pointer; 0-159; 19 R494
  coefs : List Coef := [] -- saved coefficient records; -; 15 R373
  deriving DecidableEq, Repr

/-- Module flash (R457, R460, R464). -/
structure Flash where
  answers : Bool := true -- flash answers and its code checks; 1 bit; 18 R462
  firmware : Slot := {} -- firmware image slot; -; 18 R457
  options : Slot := {} -- options section slot; -; 18 R457
  ownerKey : List Byte := [] -- stored owner public key; 64 B; 18 R459
  copyA : StateSec := {} -- state section, first copy; -; 18 R460
  copyB : StateSec := {} -- state section, second copy; -; 18 R460
  certs : SMap (List Byte) := [] -- certificate chains of slots 0-7; -; 18 R464
  deriving DecidableEq, Repr

/-- What the pier runs with after a start-up (R463: kept until the next module reset). -/
structure Running where
  fwHeader : List Byte := [] -- firmware header as verified; 128 B; 18 R458
  fwBody : List Byte := [] -- firmware body as verified; -; 18 R466
  optHeader : List Byte := [] -- options header as verified; 128 B; 18 R458
  optBody : List Byte := [] -- options body as verified; -; 18 R466
  ownerKey : List Byte := [] -- owner key in use; 64 B; 18 R466
  sec : StateSec := {} -- working state section; -; 18 R457
  deriving DecidableEq, Repr

/-! ### Power, pins and the management bus -/

/-- Where the module stands between no input and service (R450, R451, R462, R471, R555). -/
inductive Phase where
  | unpowered | softStart | railsUp | fuseRead | verified | released | trained | zeroed
  | ready | configHold | quiesced | tripped
  deriving DecidableEq, Repr

/-- A staged clock plan (R367). -/
structure ClockPlan where
  t : Nat := 0 -- apply time, ns; 64 bits; 14 R367
  targets : List Nat := [] -- 20 targets of 6 bits; 20 x 6 bits; 17 R438
  seqNo : BitVec 32 := 0 -- SD.SEQ of the descriptor; 32 bits; 17 R437
  deriving DecidableEq, Repr

/-- Power stage, pins and management bus (22) and the power registers (21 R529). -/
structure Power where
  phase : Phase := .unpowered -- module state; -; 18 R471
  mrstLow : Bool := false -- MRST_N held low; 1 bit; 22 R559
  perst : Bool := true -- PERST# asserted; 1 bit; 18 R454
  vin : Nat := 0 -- input voltage, 10 mV; 16 bits; 22 R558
  watts : Nat := 0 -- PWR.INPUT; 11 bits; 21 R529
  tCompute0 : Int := 0 -- compute die 0, 1/16 degree; 16 bits; 22 R558
  tCompute1 : Int := 0 -- compute die 1, 1/16 degree; 16 bits; 22 R558
  tIo : Int := 0 -- I/O die, 1/16 degree; 16 bits; 22 R558
  tHbm : Int := 0 -- hottest HBM stack, 1/16 degree; 16 bits; 22 R558
  tStage : Int := 0 -- power stage, 1/16 degree; 16 bits; 22 R558
  tCoolant : Int := 0 -- coolant outlet, 1/16 degree; 16 bits; 22 R558
  throttling : BitVec 5 := 0 -- sensors under throttle: compute 0 and 1, I/O, HBM, stage; any is THERMAL bit 0; 5 bits; 22 R554, R558
  tripCause : Nat := 0 -- THERMAL bits 4:2; 3 bits; 22 R558
  alert : Bool := false -- ALERT_N asserted; 1 bit; 22 R545, R554
  cap : Nat := 1650 -- PWR.CAP; 11 bits; 21 R529
  coord : Bool := false -- PWR.MODE, 1 COORD; 1 bit; 14 R366, 21 R529
  fellBack : Bool := false -- PWR.FELL_BACK; 1 bit; 21 R529
  clocks : SMap Nat := [] -- arithmetic clock of each cluster in 25 MHz steps, default 70 (1.75 GHz); 20 x 28-70; 01 R19
  plan : Option ClockPlan := none -- staged clock plan; -; 14 R367
  ppsOut : Nat := 0 -- last keystone second at which PPS_OUT rose; 64 bits; 22 R549
  smbus : Option (List Byte) := none -- last management-bus reply, none when not acknowledged; -; 22 R557
  started : Nat := 0 -- keystone time of the last start-up or reset; 64 bits; 18 R450
  deriving DecidableEq, Repr

/-! ### Keystone time -/

/-- KT.STATE (R349). -/
inductive KtState where
  | master | extref | acquire | locked | holdover | free
  deriving DecidableEq, Repr

/-- What a mark offers: the root fields and the sender's state (R341). -/
structure Offer where
  prio : Nat := 0xFF -- TM.ROOT_PRIO; 8 bits; 14 R341
  serial : BitVec 64 := 0 -- TM.ROOT_SERIAL; 64 bits; 14 R341
  rootId : Nat := 0 -- TM.ROOT_ID; 16 bits; 14 R341
  rootIdValid : Bool := false -- TM.ROOT_ID_VALID; 1 bit; 14 R341
  rootSeq : Nat := 0 -- TM.ROOT_SEQ; 32 bits; 14 R341
  hops : Nat := 0 -- TM.HOPS; 5 bits; 14 R341
  errPs : Nat := 0xFFFFFFFF -- TM.ERR_PS; 32 bits; 14 R341
  state : Nat := 0 -- TM.STATE; 3 bits; 14 R341
  deriving DecidableEq, Repr

/-- The keystone time island (14) and its readout registers (21 R534). -/
structure Keystone where
  now : Nat := 0 -- keystone time in fraction units, KT.NS * 65536 + KT.FRAC; 80 bits; 14 R338
  state : KtState := .master -- KT.STATE; 3 bits; 14 R349, 21 R534
  parent : Option Nat := none -- KT.PARENT, none is 31; 5 bits; 14 R346, 21 R534
  root : Offer := {} -- root fields, hops and error bound against the root; -; 14 R346
  rootSeq : Nat := 0 -- own TM.ROOT_SEQ when root; 32 bits; 14 R346
  rate : Int := 0 -- servo rate; 64 bits; 14 R343
  good : Nat := 0 -- consecutive good marks; 32 bits; 14 R343
  slew : Int := 0 -- slew over the current microsecond, fraction units; 64 bits; 14 R343
  slewAt : Nat := 0 -- nanoseconds of the current slew already spread; 0-1000; 14 R343
  prio : Nat := 0x80 -- KT.PRIO; 8 bits; 14 R344, 21 R541
  extref : Bool := false -- KT.EXTREF; 1 bit; 14 R348, 21 R541
  holdMs : Nat := 100 -- KT.HOLD_MS; 10 bits; 14 R349, 21 R541
  firstLock : Bool := false -- the module has locked once since its input appeared; 1 bit; 14 R339
  refLocked : Bool := false -- locked to the external reference; 1 bit; 14 R348
  refLeft : Int := 0 -- correction toward the external reference not yet slewed, fraction units; 64 bits; 14 R348
  refLost : Bool := false -- external reference lost; 1 bit; 22 R550
  lastPps : Option Nat := none -- time of the last PPS_IN edge, ns; 64 bits; 22 R550
  code : Option (Nat × Nat) := none -- last counted time code: second, arrival ns; -; 22 R550
  lastSecond : Option Nat := none -- second of the last counted frame; 64 bits; 22 R550
  holdSince : Nat := 0 -- time HOLDOVER was entered; 64 bits; 14 R349
  holdBase : Nat := 0 -- error bound at loss of lock, ps; 32 bits; 14 R352
  bayHold : Bool := false -- reserved bays held; 1 bit; 14 R353
  bayFrom : Nat := 0 -- bay boundary from which reserved bays run again, ns; 64 bits; 14 R353
  readHiNs : BitVec 16 := 0 -- KT.READ_HI_NS latch; 16 bits; 21 R534
  readHiFrac : BitVec 16 := 0 -- KT.READ_HI_FRAC latch; 16 bits; 21 R534
  launchLead : Nat := 20000 -- KT.LAUNCH_LEAD; 32 bits; 21 R534
  lateLaunches : Nat := 0 -- KT.LATE_LAUNCHES; 32 bits; 21 R534
  deriving DecidableEq, Repr

/-! ### Fabric -/

/-- Link states of R375. -/
inductive LinkState where
  | dark | training | localSt | routed | retrain
  deriving DecidableEq, Repr

/-- A packet that waits in the module: its bytes, where it came from and when. -/
structure Pkt where
  bytes : List Byte := [] -- header flit and payload flits; 64-576 B; 15 R380, R382
  ctrl : Bool := false -- a control packet; 1 bit; 15 R380
  ingress : Option Nat := none -- ingress port, none when injected here; 0-17; 16 R400
  vc : Nat := 0 -- virtual channel; 3 bits; 15 R383
  at_ : Nat := 0 -- arrival or injection time, ns; 64 bits; 15 R388
  inVc : Nat := 0 -- virtual channel on which it arrived; 3 bits; 15 R383
  chan : Option Nat := none -- injecting Dovetail channel; 0-639; 12 R306
  sched : Bool := false -- a scheduled send, reserved bays only; 1 bit; 12 R308
  deriving DecidableEq, Repr

/-- A fabric port (15, 16; window 21 R541). -/
structure Port where
  state : LinkState := .dark -- PORT.STATE; 3 bits; 15 R375, 21 R541
  routedBit : Bool := false -- PORT.ROUTED; 1 bit; 21 R541
  half : Bool := false -- PORT.HALF; 1 bit; 15 R374, 21 R541
  peer : List Byte := [] -- the peer's latest IDENT body; 48 B; 15 R393
  identOut : List Byte := [] -- the IDENT body last sent; 48 B; 15 R393
  identAt : Nat := 0 -- when it was sent, ns; 64 bits; 15 R393
  asym : Int := 0 -- KT.ASYM; 32 bits; 14 R342, 21 R541
  txSeq : Nat := 0 -- TM.SEQ; 16 bits; 14 R341
  txStamps : List (Nat × Nat) := [] -- transmit times of the last 16 marks: TM.SEQ, fraction units; 16 entries; 14 R341
  rxSeq : Nat := 0 -- TM.SEQ of the peer's latest mark; 16 bits; 14 R341
  rxTime : Nat := 0 -- its receive time, fraction units; 80 bits; 14 R341
  marks : Nat := 0 -- marks measured since link-up or retrain; -; 14 R345
  lastMark : Nat := 0 -- time of the latest mark, ns; 64 bits; 14 R345
  rootSeqAt : Nat := 0 -- when TM.ROOT_SEQ last advanced, ns; 64 bits; 14 R345
  offer : Offer := {} -- what the latest mark offered; -; 14 R341
  theta : Int := 0 -- offset seen through the port, fraction units; 64 bits; 14 R343
  dly : Int := 0 -- dly_avg; 64 bits; 14 R343
  seen : Bool := false -- a mark has arrived since link-up; 1 bit; 14 R345
  sent : List Nat := [0, 0, 0, 0, 0, 0] -- SENT_v; 6 x 16 bits; 16 R408
  freed : List Nat := [0, 0, 0, 0, 0, 0] -- FREED_v reported by the peer; 6 x 16 bits; 16 R408
  ownFreed : List Nat := [0, 0, 0, 0, 0, 0] -- flits freed of the own ingress buffers; 6 x 16 bits; 16 R409
  told : List Nat := [0, 0, 0, 0, 0, 0] -- ownFreed as last reported; 6 x 16 bits; 16 R409
  lcSeq : Nat := 0 -- LC.SEQ; 8 bits; 16 R409
  laneOk : Nat := 0xFFFF -- latest LC.LANE_OK of the peer; 16 bits; 16 R409
  ueTimes : List Nat := [] -- times of uncorrectable frames within 1 ms; -; 15 R374
  corrected : Nat := 0 -- corrected symbols counted; -; 15 R377
  drops : SMap Nat := [] -- drop counter per reason; -; 15 R391
  egress : List Pkt := [] -- packets that wait for this egress; -; 16 R400, R411
  rr : Nat := 0 -- round-robin place of the egress; -; 16 R411
  rxPart : List Byte := [] -- flits of a packet whose last flit has not arrived; up to 576 B; 15 R378
  rxVc : Nat := 0 -- its virtual channel; 3 bits; 15 R378
  out : List Byte := [] -- the flits last sent on the lanes; -; 15 R376
  kept : Bool := false -- in reset: held DARK until module reset; 1 bit; 19 R498
  deriving DecidableEq, Repr

/-- An open timetable or routing change (R288, R359, R402). -/
structure Change where
  count : Nat := 0 -- declared entries; 21 bits; 14 R359
  t : Nat := 0 -- apply time T, ns; 64 bits; 14 R359
  staged : SMap Bool := [] -- distinct entries staged; -; 21 R542
  deriving DecidableEq, Repr

/-- The table unit of the I/O die (R288, R355, R398). -/
structure Tables where
  leaves : SMap (BitVec 32) := [] -- routing entries, key (port*2 + leaf)*65536 + module; 18 x 2 x 65536 x 32 bits; 16 R398
  okA : Bool := false -- RT.LEAF_OK_A; 1 bit; 16 R401
  okB : Bool := false -- RT.LEAF_OK_B; 1 bit; 16 R401
  epoch : Bool := false -- RT.EPOCH; 1 bit; 16 R401
  inj : Nat := 0 -- RT.INJ; 5 bits; 16 R398, 21 R541
  flipAt : Option Nat := none -- time of the last flip, ns; 64 bits; 16 R403
  live : SMap (BitVec 64) := [] -- live timetables, key port*4096 + bay, default OPEN; 18 x 4096 x 64 bits; 14 R355
  staging : SMap (BitVec 64) := [] -- staging copy; 18 x 4096 x 64 bits; 14 R356
  rtChange : Option Change := none -- open routing change; -; 16 R402
  ttChange : Option Change := none -- open timetable change; -; 14 R359
  modid : Nat := 0 -- ID.MODID; 16 bits; 15 R395, 21 R528
  modidValid : Bool := false -- ID.MODID_VALID; 1 bit; 15 R395
  hall : Nat := 0 -- ID.HALL; 32 bits; 15 R395
  deriving DecidableEq, Repr

/-- A receiver tracking entry of a signalled transfer, live or tombstoned (R318, R321). -/
structure Track where
  smod : Nat := 0 -- source module; 16 bits; 13 R318
  sctx : Nat := 0 -- source context; 12 bits; 13 R318
  xid : BitVec 32 := 0 -- transfer identifier; 32 bits; 13 R318
  count : Nat := 0 -- completion count; 32 bits; 13 R318
  total : Option Nat := none -- packet count of the last packet; 32 bits; 13 R317
  lastIn : Bool := false -- the last packet has been written; 1 bit; 13 R318
  lastAt : Nat := 0 -- arrival of the last packet, ns; 64 bits; 13 R320
  pktAt : Nat := 0 -- arrival of the latest packet, ns; 64 bits; 13 R320
  dctx : Nat := 0 -- destination context; 12 bits; 13 R317
  signal : Nat := 0 -- virtual flag; 14 bits; 13 R317
  rop : Nat := 0 -- DP.ROP; 4 bits; 15 R385
  fold : Nat := 0 -- Kalaz fold of the counted packets; 256 bits; 20 R516
  tomb : Option Nat := none -- tombstoned until, ns; 64 bits; 13 R321
  deriving DecidableEq, Repr

/-- A sender tombstone (R321). -/
structure SendTomb where
  ctx : Nat := 0 -- context; 12 bits; 13 R321
  xid : BitVec 32 := 0 -- transfer identifier; 32 bits; 13 R321
  until_ : Nat := 0 -- expiry, ns; 64 bits; 13 R321
  deriving DecidableEq, Repr

/-- An entry of the meta exchange table (R417). -/
structure Exch where
  ctx : Nat := 0 -- destination context; 12 bits; 16 R417
  slot : Nat := 0 -- reduction slot; 10 bits; 16 R417
  mrec : BitVec 256 := 0 -- combined meta record; 256 bits; 16 R417
  deriving DecidableEq, Repr

/-- The fabric side of the I/O die. -/
structure Fabric where
  tracks : List Track := [] -- tracking entries; 16,384; 13 R321
  tombs : List SendTomb := [] -- sender tombstones; 4,096; 13 R321
  exch : List Exch := [] -- meta exchange table; 1,024 x 32 B; 16 R417
  loc : List Pkt := [] -- packets delivered to this module, oldest first; -; 16 R400
  waits : List Exch := [] -- reduction records handed to a metadata exchange (meta record each); -; 03 R56, R64
  deriving DecidableEq, Repr

/-! ### HBM and decks -/

/-- HBM controllers and their set-up (10). -/
structure Hbm where
  active : List Nat := [] -- active channels, ascending; up to 128; 10 R237
  die : Bool := false -- HBM.INTERLEAVE in force, DIE mode; 1 bit; 10 R236, 21 R528
  fenced : BitVec 128 := 0 -- HBM.FENCE_MAP; 128 bits; 21 R528
  fencedCount : Nat := 0 -- HBM.FENCED; 8 bits; 21 R528
  ueLines : SMap (List (Nat × Nat)) := [] -- per channel: distinct uncorrectable lines and their times; -; 10 R247
  discards : SMap Nat := [] -- per channel: writes discarded since the fence; -; 10 R248
  testMode : BitVec 8 := 0 -- stacks in test mode; 8 bits; 10 R253
  ceCount : SMap Nat := [] -- per channel: corrected bursts counted; -; 10 R240
  overflow : BitVec 128 := 0 -- fences that the map-out list had no room for, until the next start-up; 128 bits; 10 R250
  deriving DecidableEq, Repr

/-- A line held by its home deck (R259, R260). Its value is what `Dev.hbm` or `Dev.host` lists at the line's address:
no other deck holds a copy (R16). What the memory beneath holds where it differs and can show again stands in `under`:
beneath a host line not yet written back, and beneath a clean line that a scrub has rewritten (R242). -/
structure DeckLine where
  host : Bool := false -- a host line; 1 bit; 10 R256
  line : Nat := 0 -- byte address of the line; 48 bits; 11 R259
  dirty : Bool := false -- not yet written back; 1 bit; 11 R260
  poison : Bool := false -- the line's poison bit; 1 bit; 10 R243
  under : Option (BitVec 512) := none -- what memory holds beneath, where it differs and can show again; 64 B; 11 R260
  deriving DecidableEq, Repr

/-- The deck caches (11). -/
structure Deck where
  lines : List DeckLine := [] -- held lines, most recently used first; 20 x 98,304; 11 R259
  retired : SMap Nat := [] -- retired ways, key (cluster*16 + bank)*512 + set; -; 19 R490
  deriving DecidableEq, Repr

/-! ### Cores and queues -/

/-- One joist row with its row tag (R71, R72). -/
structure JRow where
  words : List (BitVec 128) := List.replicate 32 0 -- span words; 32 x 128 bits; 03 R71
  nan : BitVec 32 := 0 -- JOIST.NAN; 32 bits; 03 R72
  pinf : BitVec 32 := 0 -- JOIST.PINF; 32 bits; 03 R72
  ninf : BitVec 32 := 0 -- JOIST.NINF; 32 bits; 03 R72
  count : Nat := 0 -- JOIST.COUNT; 44 bits; 03 R72
  redone : Bool := false -- JOIST.REDONE; 1 bit; 03 R72
  poison : Bool := false -- JOIST.POISON; 1 bit; 10 R233
  sister : Bool := false -- JOIST.SISTER; 1 bit; 08 R192
  s5 : Bool := false -- JOIST.S5; 1 bit; 03 R74
  int : Bool := false -- JOIST.INT; 1 bit; 03 R72
  redo : Bool := false -- JOIST.REDO; 1 bit; 03 R60
  valid : Bool := false -- JOIST.VALID; 1 bit; 03 R72
  rslot : Nat := 0 -- JOIST.RSLOT; 10 bits; 03 R72
  eobs : Int := 0 -- JOIST.EOBS; 16 bits; 03 R72
  anchor : Int := 0 -- JOIST.ANCHOR; 16 bits; 03 R72
  mixed : Bool := false -- passes of both modes since the rows were opened; 1 bit; 04 R103
  shape : Nat × Nat := (0, 0) -- M_SIZE and N_SIZE of the passes onto the row, 0 when not known; 2 x 6 bits; 04 R83
  group : List (List (BitVec 32)) := [] -- S5-order: per span word, the accumulator before the group of 32 positions that a pass left open, then that group's products; empty when none is open; 32 x 32 x 32 bits; 03 R74
  deriving DecidableEq, Repr

/-- Gauge counts that a command has gathered for one slot (R146, R148). -/
structure GaugeDelta where
  slot : Nat := 0 -- slot number; 16 bits; 06 R144
  bins : List Nat := [] -- bins hit, one entry per element; -; 06 R146
  written : Nat := 0 -- elements written; 64 bits; 06 R145
  ovf : Nat := 0 -- overflows; 64 bits; 06 R145
  van : Nat := 0 -- vanishes; 64 bits; 06 R145
  stall : Nat := 0 -- stalls; 64 bits; 06 R145
  poison : Nat := 0 -- elements written as poison; 32 bits; 06 R145
  deriving DecidableEq, Repr

/-- One open loop level of a queue (R178). -/
structure LoopLvl where
  count : Nat := 0 -- COUNT; 24 bits; 08 R178
  index : Nat := 0 -- loop index; 24 bits; 08 R179
  body : Nat := 0 -- BODY; 8 bits; 08 R178
  pos : Nat := 0 -- commands of the body passed in this turn; 8 bits; 08 R178
  pc : Nat := 0 -- address of the body's first command; 48 bits; 08 R175
  deriving DecidableEq, Repr

/-- Where an issued command writes: until it completes these hold undefined data if its context faults
(R201). -/
inductive Region where
  | mem (host : Bool) (pa : Nat) (n : Nat)
  | bench (a : Nat) (n : Nat)
  | rows (row : Nat) (n : Nat)
  | vx (r : Nat)
  deriving DecidableEq, Repr

/-- A command that has issued and not completed (R180). -/
structure Flight where
  tag : BitVec 32 := 0 -- TAG; 32 bits; 08 R183
  done : Option Nat := none -- DONE flag, the physical flag that it translated to at issue; 17 bits; 08 R183, 13 R314
  fset : List Nat := [] -- physical flags that FSET sets at completion; 4 x 17 bits; 08 R195
  fclr : List Nat := [] -- physical flags that FCLR clears at completion; 4 x 17 bits; 08 R195
  gauge : List GaugeDelta := [] -- gauge counts to add at completion; -; 06 R148
  imm : Bool := false -- needs no work after issue; 1 bit; 08 R180
  qend : Bool := false -- a QEND; 1 bit; 08 R176
  trace : Bool := false -- TRACE; 1 bit; 08 R183
  held : Bool := false -- waits for the unit that serves it (Planer, glue-up); 1 bit; 08 R194, 11 R277
  loops : List Nat := [] -- loop indexes, level 0 first; 4 x 24 bits; 08 R179
  zstep : BitVec 64 := 0 -- latched step counter; 64 bits; 06 R138
  place : Nat := 0 -- place in its queue, for the sentinel; -; 08 R203
  vc : List Nat := [0, 0, 0, 0] -- what the queue is ordered after, for the sentinel; 4 places; 08 R203
  pc : Nat := 0 -- address of the command; 48 bits; 08 R202
  dsts : List Region := [] -- where the command writes; -; 08 R201
  reads : List Region := [] -- what the command reads; -; 08 R199
  atom : Bool := false -- its device-memory accesses meet others as deck atomics; 1 bit; 08 R198
  tiles : List Nat := [] -- tiles that run it; 2 bits each; 08 R174
  zold : Option (BitVec 64) := none -- ZHV.STEP before a ZSTEP; 64 bits; 06 R138
  later : Bool := false -- works in device memory behind its issue (PLANE); 1 bit; 08 R181
  glue : Bool := false -- belongs to an open glue-up; 1 bit; 11 R277
  deriving DecidableEq, Repr

/-- The head command of a queue that waits (R323, R324). -/
structure HeadWait where
  tag : BitVec 32 := 0 -- head tag; 32 bits; 08 R200
  flags : List (Nat × Bool) := [] -- awaited virtual flags with their consume bits; 4; 13 R324
  clamp : Option (Nat × BitVec 4) := none -- CLAMP ID and QMASK at which it waits; -; 08 R196
  done : Option Nat := none -- DONE flag of the waiting CLAMP, virtual; 14 bits; 08 R196
  trace : Bool := false -- TRACE of the waiting CLAMP; 1 bit; 08 R183
  lines : Nat := 1 -- lines of the waiting CLAMP; -; 08 R175
  since : Nat := 0 -- stall watchdog start, ns; 64 bits; 13 R323
  deriving DecidableEq, Repr

/-- One engine queue of a core (R174, R175, R180). -/
structure QueueSt where
  running : Bool := false -- started by a launch and not ended; 1 bit; 08 R176
  stopped : Bool := false -- stopped by a switch that drains; 1 bit; 13 R334
  pc : Nat := 0 -- program counter; 48 bits; 08 R175
  buf : List Nat := [] -- command buffer: addresses of the commands of open loop bodies that it holds; 256; 08 R174, R175
  count : BitVec 32 := 0 -- completion count; 32 bits; 08 R180
  loops : List LoopLvl := [] -- loop stack, innermost first; 4 levels; 08 R178
  inflight : List Flight := [] -- issued and not completed, oldest first; -; 08 R180
  wait : Option HeadWait := none -- what the head waits for; -; 13 R323
  clampNo : List Nat := [0, 0, 0, 0, 0, 0, 0, 0] -- clamp meeting counts, one per ID; 8; 08 R202
  place : Nat := 0 -- commands issued since launch; -; 08 R203
  vc : List Nat := [0, 0, 0, 0] -- what the next command is ordered after; 4 places; 08 R203
  launchSeq : BitVec 32 := 0 -- SD.SEQ of the launch that runs; 32 bits; 17 R439
  launchT : Nat := 0 -- keystone time of that launch, fraction units; 80 bits; 14 R361
  lastTag : BitVec 32 := 0 -- tag of the last command issued; 32 bits; 08 R177
  glueLast : Nat := 0 -- 5 when a switch aborted the glue-up that reruns; 4 bits; 11 R281, R285
  deriving DecidableEq, Repr

/-- One action of a glue-up with its captured operands (R274, R276). -/
structure GlueAct where
  op : AtomicOp := .ld -- operation; -; 11 R263
  width : Nat := 8 -- operand width in bytes; -; 11 R263
  pa : Nat := 0 -- target byte address; 48 bits; 11 R268
  host : Bool := false -- the target lies in host memory; 1 bit; 11 R274
  opnd : Nat := 0 -- captured operand; 512 bits; 11 R276
  cmp : Nat := 0 -- captured compare value; 512 bits; 11 R276
  bmask : BitVec 64 := 0 -- byte mask of ST; 64 bits; 11 R268
  rslot : Nat := 0 -- reduction slot of SINIT; 10 bits; 11 R268
  guard : Bool := false -- GUARD; 1 bit; 11 R268
  ret : Option Nat := none -- bench address of the old value; 21 bits; 11 R268
  tag : BitVec 32 := 0 -- TAG of its ATOMIC; 32 bits; 11 R276
  deriving DecidableEq, Repr

/-- Where a glue-up stands (R280, R281, R283). -/
inductive GluePhase where
  | marking | backoff | waitClamp | committed | aborted
  deriving DecidableEq, Repr

/-- A glue-up (R275 to R287): of an S queue; of a Planer or of the host port, open between its attempts, whose actions are
the panel's or the group's. -/
structure Glue where
  id : Nat := 0 -- model's own number: 4*core + 3 of an S queue, 4*core + 2 of the PLANE of a core, 640 + ring of a submission group; -; 11 R275
  core : Nat := 0 -- opening core, whose cluster's deck coordinates; core 0 of the host port, whose groups cluster 0 coordinates; 0-159; 11 R275
  ctx : Nat := 0 -- context; 12 bits; 11 R285
  phase : GluePhase := .marking -- phase; -; 11 R280
  status : Nat := 0 -- STATUS, bench address; 21 bits; 11 R276
  acts : List GlueAct := [] -- actions in list order; at most 64; 11 R274
  marks : List Nat := [] -- lines marked, held or locked; at most 16; 11 R279
  fail : Option Nat := none -- FAIL flag of GLUE_COMMIT, the physical flag that it translated to; 17 bits; 11 R277
  commitIssued : Bool := false -- GLUE_COMMIT has issued; 1 bit; 11 R280
  attempts : Nat := 1 -- GLUE.ATTEMPTS; 3 bits; 11 R278
  counted : Nat := 0 -- counted aborts; -; 11 R281
  last : Nat := 0 -- GLUE.LAST; 4 bits; 11 R278
  clamped : Bool := false -- GLUE.CLAMPED; 1 bit; 11 R278
  retryAt : Nat := 0 -- end of the backoff, ns; 64 bits; 11 R281
  clampAt : Nat := 0 -- time of the fourth counted abort, ns; 64 bits; 11 R283
  staged : List (Nat × BitVec 512) := [] -- staged new value of each line; 512 lines a deck; 11 R275
  olds : List (Nat × BitVec 512) := [] -- old value of each line; 512 lines a deck; 11 R275
  rets : List (Nat × Nat × Nat) := [] -- old values to return: bench address, width, value; -; 11 R277
  bad : List Nat := [] -- addresses of staged records whose span add overflowed; -; 11 R265
  outcome : Nat := 0 -- GLUE.OUTCOME; 4 bits; 11 R278
  action : Nat := 0xFF -- GLUE.ACTION; 8 bits; 11 R278
  loops : List LoopLvl := [] -- loop stack at GLUE_BEGIN; 4 levels; 11 R285
  pc : Nat := 0 -- address of GLUE_BEGIN; 48 bits; 11 R285
  acked : List Nat := [] -- clusters whose deck has applied; 20 bits; 11 R280
  deriving DecidableEq, Repr

/-- A trace record (R523). -/
structure TraceRec where
  tag : BitVec 32 := 0 -- TR.TAG; 32 bits; 20 R523
  queue : Nat := 0 -- TR.QUEUE; 2 bits; 20 R523
  event : Nat := 0 -- TR.EVENT; 2 bits; 20 R523
  ctx : Nat := 0 -- TR.CTX; 12 bits; 20 R523
  kt : Nat := 0 -- TR.KT_NS and TR.KT_FRAC, fraction units; 80 bits; 20 R523
  count : BitVec 32 := 0 -- TR.COUNT; 32 bits; 20 R523
  loops : List Nat := [] -- TR.LOOP0-3; 4 x 24 bits; 20 R523
  zstep : BitVec 64 := 0 -- TR.ZSTEP; 64 bits; 20 R523
  deriving DecidableEq, Repr

/-- A core outside its memories and queues. -/
structure Core where
  resident : Option Nat := none -- resident context; 12 bits; 13 R328
  lastOwner : Option Nat := none -- last owner; 12 bits; 10 R232
  out : Bool := false -- out of service (suspect or under scan); 1 bit; 19 R491
  suspectAt : Nat := 0 -- when it became suspect, ns; 64 bits; 19 R491
  zstep : BitVec 64 := 0 -- ZHV.STEP copy; 64 bits; 06 R138
  trace : List TraceRec := [] -- trace buffer, newest first; 1,024 records; 20 R522
  deriving DecidableEq, Repr

/-- What the save area's queue part holds of one core (R202, R335). -/
structure SavedCore where
  queues : List QueueSt := [] -- the four queues; -; 08 R202
  zstep : BitVec 64 := 0 -- ZHV.STEP copy; 64 bits; 06 R138
  rows : SMap (Bool × (Nat × Nat) × List (List (BitVec 32))) := [] -- what the model keeps of each joist row beside its tag, key row; -; 03 R74, 04 R83, R103
  deriving DecidableEq, Repr

/-- A physical flag (R310). -/
structure PFlag where
  value : Bool := false -- VALUE; 1 bit; 13 R310
  gen : BitVec 8 := 0 -- GEN; 8 bits; 13 R310
  owner : Nat := 0 -- OWNER; 12 bits; 13 R310
  mapped : Bool := false -- MAPPED; 1 bit; 13 R310
  remote : Bool := false -- REMOTE; 1 bit; 13 R310
  tomb : Bool := false -- TOMB; 1 bit; 13 R310
  tombAt : Nat := 0 -- when TOMB was set, ns; 64 bits; 13 R315
  deriving DecidableEq, Repr

/-! ### Dovetail and Planer -/

/-- An access that a channel makes beside the lines that it moves, or a test that follows one (R292, R293, R299, R300). -/
inductive DvDue where
  | desc -- reads the descriptor
  | running -- writes DV.STATE 1, and checks the descriptor
  | block -- reads the pacing block
  | own -- reads its own index
  | peer -- reads the peer index
  | bytes -- writes DV.DONE_BYTES
  | index -- writes its own index
  | pause -- the pause rule
  deriving DecidableEq, Repr

/-- What a channel still writes when a line that a glue-up holds is released (R279, R304): DV.STATUS of a descriptor, or a
set of its DV.FAIL. -/
inductive Late where
  | mark (m ctx addr v : Nat)
  | flag (m ctx addr : Nat) (tag : BitVec 32) (v : Nat)
  deriving DecidableEq, Repr

/-- The context that a late write belongs to. -/
def Late.ctx : Late → Nat
  | .mark _ c _ _ => c
  | .flag _ c _ _ _ => c

/-- The descriptor that a channel runs (R291 to R305). -/
structure DvRun where
  desc : List Byte := [] -- the 64 bytes as read at start; 64 B; 12 R292
  addr : Nat := 0 -- device-virtual address of the descriptor; 48 bits; 12 R291
  tag : BitVec 32 := 0 -- tag of its DV_POST; 32 bits; 12 R291
  moved : Nat := 0 -- bytes done, 1 once an empty SEND or a MINT has acted; -; 12 R293
  stage : List (Byte × Bool) := [] -- staging buffer: bytes read and not written yet, with their poison; 16 lines; 12 R301
  pkt : List (Byte × Bool) := [] -- payload of the packet that a SEND fills; up to 512 B; 12 R306
  due : List DvDue := [] -- accesses that the channel makes before its next line; -; 12 R292, R293, R300
  code : Nat := 0 -- error code of a failed mint; 16 bits; 09 R207
  paused : Bool := true -- fill-level pause; 1 bit; 12 R300
  own0 : Nat := 0 -- own index when the descriptor started; 64 bits; 12 R299
  peer : Nat := 0 -- peer index as last read; 64 bits; 12 R300
  pb : List Byte := [] -- pacing block as read; 32 B; 12 R299
  halted : Bool := false -- DV.STATE 3; 1 bit; 12 R304
  err : Nat := 0 -- DV.ERR; 8 bits; 12 R293
  tries : Nat := 0 -- retries spent on the failing access; 3 bits; 12 R304
  retryAt : Option Nat := none -- end of the retry wait, ns; 64 bits; 12 R304
  deriving DecidableEq, Repr

/-- A Dovetail channel (R290, R291). -/
structure Chan where
  owner : Option Nat := none -- owning context; 12 bits; 12 R290
  retryLimit : Nat := 3 -- channel's retry limit; 3 bits; 12 R304
  posted : List (Nat × BitVec 32) := [] -- posted descriptor addresses and tags; 16; 12 R291
  run : Option DvRun := none -- running descriptor; -; 12 R291
  stopped : Bool := false -- stopped by a switch; 1 bit; 12 R305
  doneBytes : Nat := 0 -- DV.DONE_BYTES running count; 48 bits; 12 R293
  deriving DecidableEq, Repr

/-- A PLANE that a Planer holds (R154). -/
structure PlanerJob where
  core : Nat := 0 -- issuing core; 0-159; 07 R154
  ctx : Nat := 0 -- context; 12 bits; 07 R154
  tag : BitVec 32 := 0 -- TAG; 32 bits; 07 R157
  cmd : Option PlaneF := none -- the command; -; 07 R157
  descs : List (List Byte) := [] -- descriptor images read at issue: G, P, OFF, M, V; 5 x 192 B; 09 R208
  cfgs : List (Nat × Nat × Int) := [] -- gauge slots of P, M, V: number, bin width, EBASE; -; 06 R144
  zstep : BitVec 64 := 0 -- latched step counter; 64 bits; 07 R157
  next : Nat := 0 -- panels passed; 40 bits; 07 R170
  gauge : List GaugeDelta := [] -- counts of committed panels; -; 07 R164
  loops : List Nat := [] -- loop indexes; 4 x 24 bits; 08 R179
  mask : Option (List Bool) := none -- freeze bits of the panel whose glue-up is open, read before it opened; 32 bits; 07 R159, R167
  deriving DecidableEq, Repr

/-! ### Contexts and the host port -/

/-- CTX.STATE (R326). -/
inductive CtxState where
  | free | idle | resident | saved | faulted | draining
  deriving DecidableEq, Repr

/-- A launch that has been taken (R361, R439). -/
structure Launch where
  seqNo : BitVec 32 := 0 -- SD.SEQ; 32 bits; 17 R437
  ring : Nat := 0 -- its ring; 0-4,095; 17 R429
  start : Option Nat := none -- T, fraction units; 80 bits; 14 R361
  takenAt : Nat := 0 -- when it arrived, ns; 64 bits; 14 R361
  entries : List (Nat × Nat) := [] -- started queues (4*core + queue) and entry addresses; -; 17 R439
  begun : Bool := false -- its queues have issued; 1 bit; 14 R361
  late : Bool := false -- CR.LATE; 1 bit; 17 R443
  first : Nat := 0 -- keystone time of the first issue, fraction units; 80 bits; 14 R361, 17 R439
  left : List Nat := [] -- started queues whose QEND has not completed; -; 08 R176
  glue : Nat := 0 -- CR.GLUE; 4 bits; 17 R443
  table : List Byte := [] -- launch table as read; 32 B per core; 17 R439
  deriving DecidableEq, Repr

/-- A context (R325, R326) with what the module keeps of it beside its record. -/
structure Ctx where
  state : CtxState := .free -- CTX.STATE; 3 bits; 13 R326
  prio : Nat := 0 -- CTX.PRIO; 3 bits; 13 R326
  sentinel : Bool := false -- CTX.SENTINEL; 1 bit; 13 R326
  wdogMs : Nat := 0 -- CTX.WDOG_MS, 0 selects 100; 16 bits; 13 R326
  dvRetry : Nat := 0 -- CTX.DV_RETRY; 3 bits; 13 R326
  seed : BitVec 64 := 0 -- CTX.ZHV_SEED; 64 bits; 13 R326
  step : BitVec 64 := 0 -- CTX.ZHV_STEP; 64 bits; 13 R326
  ptRoot : Nat := 0 -- CTX.PT_ROOT; 48 bits; 13 R326
  flagBase : Nat := 0 -- CTX.FLAG_BASE; 48 bits; 13 R326
  descBase : Nat := 0 -- CTX.DESC_BASE; 48 bits; 13 R326
  flagCount : Nat := 0 -- CTX.FLAG_COUNT; 15 bits; 13 R326
  descCount : Nat := 0 -- CTX.DESC_COUNT; 17 bits; 13 R326
  gaugeCount : Nat := 0 -- CTX.GAUGE_COUNT; 17 bits; 13 R326
  redBase : Nat := 0 -- CTX.RED_BASE; 48 bits; 13 R326
  gaugeBase : Nat := 0 -- CTX.GAUGE_BASE; 48 bits; 13 R326
  saveBase : Nat := 0 -- CTX.SAVE_BASE; 48 bits; 13 R326
  cores : BitVec 160 := 0 -- CTX.CORES; 160 bits; 13 R326
  channels : BitVec 640 := 0 -- CTX.CHANNELS; 640 bits; 13 R326
  faultCode : Nat := 0 -- CTX.FAULT_CODE; 16 bits; 13 R326
  staleCount : Nat := 0 -- CTX.STALE_COUNT; 48 bits; 13 R326
  ftz : Bool := false -- VEC.FTZ, which no command or register of the spec sets (DESIGN CHOICE, log entry 40); 1 bit; 02 R37
  ieee : BitVec 5 := 0 -- IEEE status flags: invalid, div by zero, overflow, underflow, inexact from bit 0; 5 bits; 02 R36
  launches : List Launch := [] -- launches started or waiting for their time, oldest first; 8; 17 R439
  since : Nat := 0 -- when it began to wait for its cores, ns; 64 bits; 13 R329
  wants : Bool := false -- it waits for its cores; 1 bit; 13 R329
  ran : Bool := false -- a launch has completed since it became resident; 1 bit; 13 R329
  deriving DecidableEq, Repr

/-- A submission descriptor that the module has taken (R435, R437). -/
structure Desc where
  bytes : List Byte := [] -- the 64 bytes; 64 B; 17 R437
  seqNo : BitVec 32 := 0 -- SD.SEQ; 32 bits; 17 R437
  kind : Nat := 0 -- SD.KIND; 8 bits; 17 R437
  group : Nat := 0 -- SD.GROUP; 2 bits; 17 R437
  fence : Bool := false -- SD.FENCE; 1 bit; 17 R437
  deriving DecidableEq, Repr

/-- A completion that waits for its record (R443). -/
structure Comp where
  seqNo : BitVec 32 := 0 -- CR.SEQ; 32 bits; 17 R443
  kind : Nat := 0 -- CR.KIND; 8 bits; 17 R443
  late : Bool := false -- CR.LATE; 1 bit; 17 R443
  error : Nat := 0 -- CR.ERROR; 16 bits; 17 R443
  glue : Nat := 0 -- CR.GLUE; 4 bits; 17 R443
  detail : Nat := 0 -- CR.DETAIL; 64 bits; 17 R443
  kt : Nat := 0 -- CR.KT_NS; 64 bits; 17 R443
  deriving DecidableEq, Repr

/-- A ring pair and its doorbell (R429 to R435). -/
structure Ring where
  live : Bool := false -- the module holds the directory entry; 1 bit; 17 R429
  halted : Bool := false -- halted by HOST_RING; 1 bit; 17 R432
  sqBase : Nat := 0 -- RD.SQ_BASE; 48 bits; 17 R429
  sqLog2 : Nat := 0 -- RD.SQ_LOG2; 5 bits; 17 R429
  cqBase : Nat := 0 -- RD.CQ_BASE; 48 bits; 17 R429
  cqLog2 : Nat := 0 -- RD.CQ_LOG2; 5 bits; 17 R429
  db : Nat := 0 -- RD.DB; 48 bits; 17 R429
  snooped : Bool := false -- the doorbell line was snooped away and awaits its re-read; 1 bit; 17 R431
  sqTail : BitVec 32 := 0 -- DB.SQ_TAIL as last read; 32 bits; 17 R430
  cqHead : BitVec 32 := 0 -- DB.CQ_HEAD as last read; 32 bits; 17 R430
  sqHead : BitVec 32 := 0 -- SQ_HEAD, descriptors taken; 32 bits; 17 R432
  cqWritten : BitVec 32 := 0 -- completion records written; 32 bits; 17 R434
  taken : List Desc := [] -- taken and not started, oldest first; -; 17 R435
  waiting : List Desc := [] -- started FLAG_WAITs not completed; 64 long; 17 R435
  comps : List Comp := [] -- completions that wait for their record; -; 17 R443
  stall : Bool := false -- stopped by R433; 1 bit; 17 R433
  drop : Bool := false -- admin ring: dropped once its descriptors are done; 1 bit; 17 R432
  deriving DecidableEq, Repr

/-- A context switch under way (R334). -/
structure Switch where
  out : Option Nat := none -- outgoing context; 12 bits; 13 R334
  inn : Option Nat := none -- incoming context; 12 bits; 13 R334
  seqNo : Option (BitVec 32) := none -- SD.SEQ of the CTX_SWITCH; 32 bits; 17 R438
  deriving DecidableEq, Repr

/-- The host port (17) and its set-up registers (21 R529). -/
structure HostPort where
  link : Bool := false -- CXL link up; 1 bit; 17 R425
  width : Nat := 16 -- link width; -; 17 R424
  rate : Nat := 64 -- link rate, GT/s; -; 17 R424
  cxl31 : Bool := true -- CXL 3.1 host (HDM-DB); 1 bit; 17 R423
  memActive : Bool := false -- CXL Memory_Active; 1 bit; 18 R451
  ctxTable : Nat := 0 -- HOST.CTX_TABLE; 48 bits; 21 R529
  ringDir : Nat := 0 -- HOST.RING_DIR; 48 bits; 21 R529
  adminEn : Bool := false -- HOST.ADMIN_EN; 1 bit; 21 R529
  hdmBase : Nat := 0 -- HDM.BASE; 48 bits; 21 R529
  hdmSize : Nat := 0 -- HDM.SIZE; 48 bits; 21 R529
  hdmCommitted : Bool := false -- HDM commit done; 1 bit; 17 R426
  rings : SMap Ring := [] -- rings 0-4,095 of the contexts and 4,096 admin; 4,097; 17 R429
  switch : Option Switch := none -- switch under way; -; 13 R334
  regReply : BitVec 64 := 0 -- last 64-bit register read reply; 64 bits; 00 R13
  memReply : BitVec 512 := 0 -- last CXL.mem window or snoop reply; 64 B; 17 R427
  memPoison : Bool := false -- it carried CXL data poison; 1 bit; 17 R427
  ioRecs : List (Nat × List Byte) := [] -- completion records held in the I/O-die buffer with their host addresses; 1,024; 17 R425
  reread : Bool := false -- the link has returned and doorbells await their re-read; 1 bit; 17 R425
  deriving DecidableEq, Repr

/-! ### Records, attention, capture, pier -/

/-- An error record before it is written (R479). -/
structure ErrRec where
  cls : Nat := 0 -- ERR.CLASS; 16 bits; 19 R479
  kind : Nat := 0 -- ERR.KIND; 3 bits; 19 R478
  ctx : Option Nat := none -- ERR.CTX and ERR.CTX_VALID; 13 bits; 19 R479
  unit : Nat := 0 -- ERR.UNIT; 16 bits; 19 R480
  kt : Nat := 0 -- ERR.KT_NS; 64 bits; 19 R479
  tag : BitVec 32 := 0 -- ERR.TAG; 32 bits; 19 R479
  count : Nat := 1 -- ERR.COUNT; 32 bits; 19 R479
  addr : Nat := 0 -- ERR.ADDR; 64 bits; 19 R479
  detail : Nat := 0 -- ERR.DETAIL; 192 bits; 19 R479
  exts : List Nat := [] -- extension records, bytes 0x00-0x37 each; 7 x 448 bits; 19 R479
  coalesced : Bool := false -- ERR.COALESCED; 1 bit; 19 R479
  trig : Bool := false -- the record triggers a hang record, whose HR.TRIGGER names it; 1 bit; 19 R506
  deriving DecidableEq, Repr

/-- An open coalescing run (R484). -/
structure Run where
  cls : Nat := 0 -- class of the key; 16 bits; 19 R484
  ctx : Option Nat := none -- context of the key; 12 bits; 19 R484
  start : Nat := 0 -- when the run began, ns; 64 bits; 19 R484
  last : Nat := 0 -- time of its latest record, ns; 64 bits; 19 R484
  folded : Nat := 0 -- folded records; 32 bits; 19 R484
  latest : ErrRec := {} -- the latest record; -; 19 R484
  deriving DecidableEq, Repr

/-- The error unit and the error ring registers (17 R448, 19 R484, 21 R531). -/
structure ErrUnit where
  raised : List ErrRec := [] -- raised and not yet written, oldest first; -; 19 R486
  en : Bool := false -- ERR.EN; 1 bit; 21 R531
  base : Nat := 0 -- ERR.BASE; 48 bits; 21 R531
  log2 : Nat := 6 -- ERR.LOG2; 5 bits; 21 R531
  coalMs : Nat := 10 -- ERR.COAL_MS; 10 bits; 21 R531
  head : BitVec 32 := 0 -- ERR.HEAD; 32 bits; 21 R531
  tail : BitVec 32 := 0 -- ERR.TAIL; 32 bits; 21 R531
  rseq : BitVec 32 := 0 -- ERR.RSEQ of the next record; 32 bits; 19 R479
  runs : List Run := [] -- open runs; 256; 19 R484
  lost : SMap Nat := [] -- lost-record counts, key class code; u32 each; 21 R532
  lostNew : SMap Nat := [] -- lost since the last summary, key class code; -; 19 R485
  ioHeld : List ErrRec := [] -- records in the I/O-die buffer; 256; 17 R425
  boot : List ErrRec := [] -- boot log, oldest first; 32; 18 R477
  bootLost : Nat := 0 -- records that found the boot log full; -; 18 R477
  everOn : Bool := false -- the ring has been enabled since start-up; 1 bit; 18 R477
  deriving DecidableEq, Repr

/-- The attention unit (17 R445, 21 R533). -/
structure Attn where
  raw : BitVec 12 := 0x200 -- ATTN.RAW; 12 bits; 21 R533
  mask : BitVec 12 := 0xFFF -- ATTN.MASK; 12 bits; 21 R533
  seqNo : BitVec 4 := 0 -- ATTN.SEQ; 4 bits; 17 R446
  deriving DecidableEq, Repr

/-- Kalaz capture (20 R513, 21 R536). -/
structure Kalaz where
  en : Bool := false -- KZ.EN; 1 bit; 20 R513
  admin : Bool := false -- KZ.ADMIN; 1 bit; 20 R513
  pkt : Bool := false -- KZ.PKT; 1 bit; 20 R513
  hostMem : Bool := false -- KZ.HOSTMEM; 1 bit; 20 R513
  log2 : Nat := 10 -- KZ.LOG2; 5 bits; 20 R513
  base : Nat := 0 -- KZ.BASE; 48 bits; 20 R513
  select : Nat := 0 -- KZ.SELECT; 48 bits; 20 R513
  bitmap : List Byte := [] -- the bitmap as read when KZ.EN rose; 512 B; 20 R513
  head : BitVec 32 := 0 -- KZ.HEAD; 32 bits; 20 R513
  tail : BitVec 32 := 0 -- KZ.TAIL; 32 bits; 20 R513
  lost : Nat := 0 -- KZ.LOST; 32 bits; 20 R513
  rseq : BitVec 32 := 0 -- KZ.RSEQ of the next record; 32 bits; 20 R514
  lostNew : Nat := 0 -- lost since the last LOST record; -; 20 R515
  deriving DecidableEq, Repr

/-- One section of a hang record (R506). -/
structure HangSec where
  unit : Nat := 0 -- SEC.UNIT; 16 bits; 19 R506
  status : Nat := 0 -- SEC.STATUS; 2 bits; 19 R506
  len : Nat := 0 -- SEC.LENGTH; 32 bits; 19 R506
  time : Nat := 0 -- keystone time of the first access; 64 bits; 19 R506
  content : List Nat := [] -- what the body holds, in the order of R506, whose layout is not given; -; 19 R506
  deriving DecidableEq, Repr

/-- A hang record (R504 to R506). -/
structure HangRec where
  cause : Nat := 0 -- HR.CAUSE; 2 bits; 19 R506
  level : Nat := 0 -- HR.LEVEL; 2 bits; 19 R506
  ctx : Nat := 0 -- HR.CTX; 12 bits; 19 R506
  start : Nat := 0 -- HR.KT_START; 64 bits; 19 R506
  stop : Nat := 0 -- HR.KT_END; 64 bits; 19 R506
  trigger : BitVec 32 := 0 -- HR.TRIGGER; 32 bits; 19 R506
  sections : List HangSec := [] -- sections; 209; 19 R506
  deriving DecidableEq, Repr

/-- The pier controller and its mailboxes (18, 21 R537 to R540). -/
structure Pier where
  hold : Nat := 0 -- PIER.HOLD_REASON; 8 bits; 18 R462, 21 R537
  removeReady : Bool := false -- PIER.REMOVE_READY; 1 bit; 18 R473
  debug : Nat := 0 -- PIER.DEBUG; 2 bits; 18 R468
  mboxBuf : Nat := 0 -- PIER.MBOX_BUF; 48 bits; 21 R537
  arg0 : Nat := 0 -- PIER.ARG0; 48 bits; 21 R537
  arg1 : Nat := 0 -- PIER.ARG1; 48 bits; 21 R537
  busy : Option (Nat × Nat × Nat) := none -- running command: code, result, length to report; -; 21 R539
  done : Bool := false -- PIER.MBOX_STATUS.DONE; 1 bit; 21 R537
  overrun : Bool := false -- PIER.MBOX_STATUS.OVERRUN; 1 bit; 21 R537
  result : Nat := 0 -- PIER.MBOX_STATUS.RESULT; 8 bits; 21 R537
  length : Nat := 0 -- PIER.MBOX_STATUS.LENGTH; 32 bits; 21 R537
  nonce : Option (BitVec 128) := none -- valid debug nonce; 128 bits; 18 R470
  tokenDigest : BitVec 256 := 0 -- digest of the unlocking token; 256 bits; 18 R466
  img : Option (Nat × List Byte × Nat) := none -- open image load: kind, header, next offset; -; 18 R463
  hang : Option HangRec := none -- hang store; 1 MiB; 19 R505
  hangBusy : Option HangRec := none -- hang record being taken; -; 19 R504
  hangMissed : Nat := 0 -- HR.MISSED; 32 bits; 19 R505
  scan : Option (Nat × Bool) := none -- core under field scan, and whether the host asked; -; 19 R494
  scanTimes : SMap Nat := [] -- keystone time of each core's last passing scan, fraction units; 160 x 80 bits; 19 R494
  fmBuf : Nat := 0 -- FM.BUF; 48 bits; 21 R540
  fmBusy : List (Nat × BitVec 32 × Nat) := [] -- outstanding requests: slot, MG.SEQ, sent at ns; 512; 21 R540
  fmDone : Bool := false -- FM.STATUS.DONE; 1 bit; 21 R540
  fmOverrun : Bool := false -- FM.STATUS.OVERRUN; 1 bit; 21 R540
  holdNext : Bool := false -- RST.HOLD_NEXT: the reset under way ends in config-hold; 1 bit; 21 R529
  badCreate : Bool := false -- debug level 3: context creation refused; 1 bit; 18 R468
  deriving DecidableEq, Repr

/-- The SPDM responder (R465). -/
structure Spdm where
  version : Bool := false -- GET_VERSION answered; 1 bit; 18 R465
  caps : Bool := false -- GET_CAPABILITIES answered; 1 bit; 18 R465
  algos : Bool := false -- algorithms negotiated (SM2, SM3-256); 1 bit; 18 R465
  error : Bool := false -- the last reply was an ERROR; 1 bit; 18 R465
  errorCode : Nat := 0 -- its code, 7 UnsupportedRequest; 8 bits; 18 R465
  reply : List Byte := [] -- payload of the last reply; -; 18 R465
  chunkHandle : Nat := 0 -- handle of the open chunked transfer; 8 bits; 18 R465
  chunkNext : Nat := 0 -- next chunk sequence number; 32 bits; 18 R465
  chunkIn : List Byte := [] -- bytes gathered by CHUNK_SEND; -; 18 R465
  chunkOut : List Byte := [] -- large reply that CHUNK_GET reads; -; 18 R465
  deriving DecidableEq, Repr

/-- A domain reset under way (R498, R500). -/
structure RstJob where
  domain : Nat := 0 -- 1 engine, 2 core, 3 cluster, 4 module, 5 rail cycle due, 6 start-up after it, 7 module reset that awaits the hang record; 3 bits; 21 R529, 19 R499, R504
  unit : BitVec 16 := 0 -- unit in the ERR.UNIT encoding; 16 bits; 19 R480
  since : Nat := 0 -- start, ns; 64 bits; 19 R498
  fromReg : Bool := false -- started from RST: RST.BUSY; 1 bit; 21 R529
  deriving DecidableEq, Repr

/-- A cached translation (R330): by which cache (cluster, or 20 for the I/O die), context, 64 KiB page
number, and the leaf entry with its level. -/
structure XEntry where
  unit : Nat := 0 -- cluster, or 20 for the I/O die; -; 13 R330
  ctx : Nat := 0 -- context; 12 bits; 13 R330
  page : Nat := 0 -- device-virtual address bits 47:16; 32 bits; 13 R330
  pte : Nat := 0 -- the leaf entry; 64 bits; 13 R331
  level : Nat := 3 -- its level, 2 or 3; -; 13 R330
  deriving DecidableEq, Repr

/-- A virtual flag that a cluster has translated (R314). -/
structure FEntry where
  unit : Nat := 0 -- cluster; 0-19; 13 R314
  ctx : Nat := 0 -- context; 12 bits; 13 R314
  v : Nat := 0 -- virtual flag; 14 bits; 13 R314
  entry : Nat := 0 -- the table entry; 32 bits; 13 R313
  deriving DecidableEq, Repr

/-- Everything of the module but its fuses. -/
structure Dev where
  pwr : Power := {} -- power, pins, management bus
  kt : Keystone := {} -- keystone island
  flash : Flash := {} -- module flash
  run : Running := {} -- firmware, options and state section in effect
  ports : SMap Port := [] -- fabric ports, key port number
  tab : Tables := {} -- table unit
  fab : Fabric := {} -- fabric side of the I/O die
  hbmc : Hbm := {} -- HBM controllers
  deck : Deck := {} -- deck caches
  glues : List Glue := [] -- open glue-ups of S queues, Planers and the host port; 160, 20 x 4 and 4; 11 R275
  hbm : Mem := [] -- HBM as its home decks serve it, key physical byte address, default 0; 192 x 10^9 B; 10 R235
  hbmPoison : SMap Bool := [] -- lines that HBM itself holds poisoned, key line byte address; -; 10 R243
  host : Mem := [] -- host memory, key host physical byte address; 48-bit addresses; 10 R256
  hostPoison : SMap Bool := [] -- host lines with CXL data poison; -; 10 R256
  bench : Mem := [] -- benches, key core*2^21 + byte address; 160 x 1,572,864 B; 10 R229
  benchPoison : SMap Bool := [] -- poisoned bench words, key (core*2^21 + address)/8; -; 10 R231
  joist : SMap JRow := [] -- joist rows, key core*1024 + row; 160 x 1,024 rows; 10 R233
  vx : SMap (BitVec 32) := [] -- vector registers, key (core*16 + register)*64 + lane; 160 x 16 x 64 x 32 bits; 05 R108
  cores : SMap Core := [] -- cores, key core number; 160; 01 R15
  queues : SMap QueueSt := [] -- engine queues, key 4*core + queue; 640; 08 R174
  parts : SMap (BitVec 160) := [] -- participants of each open reduction, key ctx*1024 + slot; 160 bits; 03 R56, R74
  shadow : SMap (Nat × BitVec 32 × Nat) := [] -- sentinel shadow, key core*24576 + granule: queue, tag, place; -; 08 R203
  flagVc : SMap (Nat × List Nat) := [] -- sentinel order carried by flags, key physical flag: core, places; -; 08 R203
  saved : SMap SavedCore := [] -- saved queue state, key ctx*256 + core; -; 13 R335
  flags : SMap PFlag := [] -- physical flags, key cluster*4096 + flag; 81,920; 13 R310
  late : List Late := [] -- channel writes that await a held line, oldest first; -; 11 R279
  chans : SMap Chan := [] -- Dovetail channels, key module channel number; 640; 12 R290
  dvRr : SMap Nat := [] -- round-robin place of each Dovetail engine and level; -; 12 R301
  planers : SMap (List PlanerJob) := [] -- held PLANEs of each cluster, next served first, those of a context that is switched out kept with their next panel; 8 each; 07 R154
  ctxs : SMap Ctx := [] -- contexts, key context number; 4,096; 13 R325
  hostp : HostPort := {} -- host port
  err : ErrUnit := {} -- error unit
  attn : Attn := {} -- attention unit
  kz : Kalaz := {} -- Kalaz capture
  pier : Pier := {} -- pier controller
  spdm : Spdm := {} -- SPDM responder
  resets : List RstJob := [] -- domain resets under way
  xcache : List XEntry := [] -- cached translations, newest first; 20 x 2,048 and 4,096; 13 R330
  ctxDirty : List Nat := [] -- contexts whose record line a glue-up holds and that await the module's write; -; 11 R279
  fcache : List FEntry := [] -- translated flags, newest first; 20 x 1,024; 13 R314
  free : Nat := 0 -- the model's own counter of free values, no state of the module
  deriving DecidableEq, Repr

/-- The module with its queue of waiting commands, first in first out. -/
structure State where
  pending : List Instr
  fuse : Fuse
  dev : Dev
  deriving DecidableEq, Repr

/-- The module as it is fitted, its 60 V input absent: every register at the reset value of 21, every
memory empty, every context free, and the queue empty. -/
def State.reset : State := ⟨[], {}, {}⟩

end Sys2Proof.Machine
end

