-- ==== Sys2Proof/Machine/Ops.lean ====
section
/-!
DEFINITION. The named operations over the state: sparse maps in canonical form, byte memories, and
the accessors of the units.
-/

namespace Sys2Proof.Machine

/-! ### Sparse maps -/

/-- The value that a sparse map holds at `k`; an unlisted key reads as `d`. -/
def mapGet {α : Type} (d : α) : SMap α → Nat → α
  | [], _ => d
  | (a, v) :: m, k => if a = k then v else mapGet d m k

/-- A sparse map with `v` at `k`, keys rising, an entry equal to the default removed. -/
def mapPut {α : Type} [DecidableEq α] (d : α) (k : Nat) (v : α) : SMap α → SMap α
  | [] => if v = d then [] else [(k, v)]
  | (a, w) :: m =>
    if k < a then (if v = d then (a, w) :: m else (k, v) :: (a, w) :: m)
    else if k = a then (if v = d then m else (k, v) :: m)
    else (a, w) :: mapPut d k v m

/-- The canonical form of a sparse map from key `lo` on: keys strictly rising, no entry at the default. -/
def mapOkFrom {α : Type} [DecidableEq α] (d : α) : Nat → SMap α → Bool
  | _, [] => true
  | lo, (a, v) :: m => decide (lo ≤ a) && decide (v ≠ d) && mapOkFrom d (a + 1) m

/-- The canonical form of a sparse map. -/
def mapOk {α : Type} [DecidableEq α] (d : α) (m : SMap α) : Bool := mapOkFrom d 0 m

/-- A sparse map with `f` applied at `k`. -/
def mapMod {α : Type} [DecidableEq α] (d : α) (k : Nat) (f : α → α) (m : SMap α) : SMap α :=
  mapPut d k (f (mapGet d m k)) m

/-! ### Byte memories -/

/-- The canonical form of a byte memory (unlisted addresses read 0). -/
def memOk (m : Mem) : Bool := mapOk 0 m

/-- The canonical form, under the name that the memory's lemmas are found by. -/
abbrev Memory.wf (m : Mem) : Bool := memOk m

/-- The byte at `a`. -/
def memByte (m : Mem) (a : Nat) : Byte := mapGet 0 m a

/-- `n` bytes from `a`, lowest address first. -/
def memRead (m : Mem) (a : Nat) : Nat → List Byte
  | 0 => []
  | n + 1 => memByte m a :: memRead m (a + 1) n

/-- The little-endian number of `n` bytes at `a`. -/
def memLe (m : Mem) (a n : Nat) : Nat := ofLe (memRead m a n)

/-- The memory with `bs` stored from `a` on. -/
def memWrite (m : Mem) (a : Nat) : List Byte → Mem
  | [] => m
  | b :: bs => memWrite (mapPut 0 a b m) (a + 1) bs

/-- The memory with the bytes of `bs` that `mask` selects (bit i: byte i) stored from `a` on. -/
def memWriteMask (m : Mem) (a mask : Nat) : List Byte → Mem
  | [] => m
  | b :: bs =>
    memWriteMask (if mask % 2 = 1 then mapPut 0 a b m else m) (a + 1) (mask / 2) bs

/-- The memory with `n` zero bytes from `a` on: every listed address of the range dropped. -/
def memZero (m : Mem) (a n : Nat) : Mem := m.filter (fun p => decide (p.1 < a) || decide (a + n ≤ p.1))

/-- The memory with the range of `n` bytes from `a` replaced by what `es` lists there. -/
def memSplice (m : Mem) (a n : Nat) (es : Mem) : Mem :=
  m.filter (fun p => decide (p.1 < a)) ++ es.filter (fun p => decide (a ≤ p.1) && decide (p.1 < a + n))
    ++ m.filter (fun p => decide (a + n ≤ p.1))

/-- What a memory lists in the range of `n` bytes from `a`, moved to `b`. -/
def memSlice (m : Mem) (a n b : Nat) : Mem :=
  (m.filter (fun p => decide (a ≤ p.1) && decide (p.1 < a + n))).map (fun p => (p.1 - a + b, p.2))

/-- The entries of bytes stored from `a` on. -/
def memOf (a : Nat) : List Byte → Mem
  | [] => []
  | b :: bs => if b = 0 then memOf (a + 1) bs else (a, b) :: memOf (a + 1) bs

/-- A flag map with the keys from `a` on, `n` of them, cleared. -/
def mapClear {α : Type} (a n : Nat) (m : SMap α) : SMap α :=
  m.filter (fun p => decide (p.1 < a) || decide (a + n ≤ p.1))

/-! ### The shape of a meaning -/

/-- A command that acts on the module's units: a next state, or the fault for a unit that the module
does not have. -/
def onDev (known : Bool) (f : Dev → Dev) (s : State) : Host.Outcome State Fault Refusal :=
  if known then .next { s with dev := f s.dev } else .fault .unknownUnit

/-- A command whose effect also reads the fuses. -/
def onFuse (known : Bool) (f : Fuse → Dev → Dev) (s : State) : Host.Outcome State Fault Refusal :=
  if known then .next { s with dev := f s.fuse s.dev } else .fault .unknownUnit

end Sys2Proof.Machine
end

