-- ==== Sys2Proof/Machine/Errors.lean ====
section
/-!
DEFINITION. Error classes and kinds (19 R478 to R482, R560), the attention word (17 R445, R446) and
the raising of records.
-/

namespace Sys2Proof.Machine

/-! ### Class codes (R481) -/

def cmdQueue : Nat := 0x0101
def cmdDecode : Nat := 0x0102
def cmdLoop : Nat := 0x0103
def cmdBenchRange : Nat := 0x0104
def cmdAlias : Nat := 0x0105
def cmdDesc : Nat := 0x0106
def cmdOperand : Nat := 0x0107
def cmdClamp : Nat := 0x0108
def cmdTime : Nat := 0x0109
def cmdLate : Nat := 0x010A
def cmdRace : Nat := 0x010B
def descFormat : Nat := 0x0201
def descRank : Nat := 0x0202
def descSize : Nat := 0x0203
def descCount : Nat := 0x0204
def descLayout : Nat := 0x0205
def descRange : Nat := 0x0206
def descAlias : Nat := 0x0207
def descZmap : Nat := 0x0208
def descHandle : Nat := 0x0209
def descUse : Nat := 0x020A
def descIndex : Nat := 0x020B
def descDuplicate : Nat := 0x020C
def spanUnresolved : Nat := 0x0301
def spanAnchorRange : Nat := 0x0302
def spanCount : Nat := 0x0303
def spanMismatch : Nat := 0x0304
def spanSlot : Nat := 0x0305
def spanRedoPending : Nat := 0x0306
def spanWidth : Nat := 0x0307
def matRange : Nat := 0x0401
def matBound : Nat := 0x0402
def matNonfinite : Nat := 0x0403
def matSister : Nat := 0x0404
def matOperand : Nat := 0x0405
def zhvRange : Nat := 0x0501
def gaugeSlotErr : Nat := 0x0502
def plnOperand : Nat := 0x0503
def plnNonfinite : Nat := 0x0504
def benchCe : Nat := 0x0601
def joistCe : Nat := 0x0602
def benchUe : Nat := 0x0603
def joistUe : Nat := 0x0604
def hbmCe : Nat := 0x0605
def hbmUe : Nat := 0x0606
def hbmCa : Nat := 0x0607
def hbmFence : Nat := 0x0608
def hbmMapoutFull : Nat := 0x0609
def hostMem : Nat := 0x060A
def deckCe : Nat := 0x0701
def deckUe : Nat := 0x0702
def deckTag : Nat := 0x0703
def deckSpan : Nat := 0x0704
def deckOperand : Nat := 0x0705
def glueLimit : Nat := 0x0706
def glueBody : Nat := 0x0707
def glueSpace : Nat := 0x0708
def glueTimeoutCls : Nat := 0x0709
def remoteAtomic : Nat := 0x070A
def dvChannel : Nat := 0x0801
def dvDesc : Nat := 0x0802
def dvPace : Nat := 0x0803
def dvBuserr : Nat := 0x0804
def dvStop : Nat := 0x0805
def dvXlate : Nat := 0x0806
def dvFlag : Nat := 0x0807
def flagXlate : Nat := 0x0901
def flagOwner : Nat := 0x0902
def flagBusy : Nat := 0x0903
def flagGen : Nat := 0x0904
def flagRemote : Nat := 0x0905
def xferTimeoutCls : Nat := 0x0906
def trackFull : Nat := 0x0907
def qstallCls : Nat := 0x0908
def ctxStateErr : Nat := 0x0909
def ctxCoreErr : Nat := 0x090A
def ctxChannelErr : Nat := 0x090B
def ctxFieldErr : Nat := 0x090C
def xlateFault : Nat := 0x090D
def xlatePerm : Nat := 0x090E
def xlateRemote : Nat := 0x090F
def timeUnlock : Nat := 0x0A01
def timeHold : Nat := 0x0A02
def timeRoot : Nat := 0x0A03
def timeExtref : Nat := 0x0A04
def ttTime : Nat := 0x0A05
def ttBusy : Nat := 0x0A06
def ttIncomplete : Nat := 0x0A07
def pwrPlan : Nat := 0x0A08
def pwrIncomplete : Nat := 0x0A09
def pwrGuardCls : Nat := 0x0A0A
def fabFecCe : Nat := 0x0B01
def fabFecUe : Nat := 0x0B02
def fabDrop : Nat := 0x0B03
def fabLink : Nat := 0x0B04
def fabIdent : Nat := 0x0B05
def rtBusy : Nat := 0x0B06
def rtIncomplete : Nat := 0x0B07
def fabCredit : Nat := 0x0B08
def hostLinkCls : Nat := 0x0C01
def hostRing : Nat := 0x0C02
def hostKind : Nat := 0x0C03
def hostField : Nat := 0x0C04
def hostCancel : Nat := 0x0C05
def hostGroup : Nat := 0x0C06
def bootHold : Nat := 0x0D01
def configState : Nat := 0x0D02
def imgLoad : Nat := 0x0D03
def debugUnlock : Nat := 0x0D04
def rollbackCls : Nat := 0x0D05
def poisonCls : Nat := 0x0E01
def cvtNan : Nat := 0x0E02
def pwrLimit : Nat := 0x0E03
def engineFault : Nat := 0x0E04
def uncore : Nat := 0x0E05
def scanFail : Nat := 0x0E06
def coreOffline : Nat := 0x0E07
def resetDoneCls : Nat := 0x0E08
def resetEscalateCls : Nat := 0x0E09
def resetLoss : Nat := 0x0E0A
def hangReady : Nat := 0x0E0B
def lostSummaryCls : Nat := 0x0E0C
def pierReset : Nat := 0x0E0D

/-- ERR.KIND of a class (R482, R560), in its own record; a class that faults a context raises
CONTEXT unless it is HARDWARE. -/
def kindOf (cls : Nat) : Nat :=
  if [benchCe, joistCe, hbmCe, deckCe, fabFecCe].contains cls then 0
  else if [plnNonfinite, descFormat, descRank, descSize, descCount, descLayout, descRange, descAlias,
      descZmap, descHandle, remoteAtomic, flagOwner, flagBusy, ctxStateErr, ctxCoreErr, ctxChannelErr,
      ctxFieldErr, ttTime, ttBusy, ttIncomplete, pwrPlan, pwrIncomplete, rtBusy, rtIncomplete, hostRing,
      imgLoad, cvtNan].contains cls then 1
  else if [spanWidth, matRange, matSister, benchUe, joistUe, hbmUe, hbmCa, hbmFence, hbmMapoutFull,
      deckUe, deckTag, deckSpan, glueTimeoutCls, fabCredit, engineFault, uncore, scanFail,
      resetEscalateCls].contains cls then 3
  else if [hostMem, flagGen, flagRemote, xferTimeoutCls, trackFull, xlateRemote, fabFecUe, fabDrop,
      lostSummaryCls].contains cls then 4
  else if [timeUnlock, timeHold, timeRoot, timeExtref, pwrGuardCls, fabLink, fabIdent, hostLinkCls,
      bootHold, configState, debugUnlock, rollbackCls, pwrLimit, coreOffline, resetDoneCls, hangReady,
      pierReset].contains cls then 5
  else 2

/-! ### Units (R480) -/

def unitCore (c : Nat) : Nat := 0x1000 + c
def unitQueue (c q : Nat) : Nat := 0x2000 + 4 * c + q
def unitTile (c t : Nat) : Nat := 0x3000 + 4 * c + t
def unitCluster (k : Nat) : Nat := 0x4000 + k
def unitDovetail (e : Nat) : Nat := 0x5000 + e
def unitPlaner (k : Nat) : Nat := 0x6000 + k
def unitHbm (ch : Nat) : Nat := 0x7000 + ch
def unitPort (p : Nat) : Nat := 0x8000 + p
def unitHost : Nat := 0x9000
def unitPier : Nat := 0xA000
def unitKeystone : Nat := 0xB000
def unitSwitch : Nat := 0xC005
def unitTable : Nat := 0xC006
def unitPower : Nat := 0xD000
def unitFlash : Nat := 0xD001

/-! ### Attention (R445, R446) -/

/-- One attention event: the sticky bit is held, and ATTN.SEQ advances when an unmasked bit rises. -/
def attnSet (i : Nat) (d : Dev) : Dev :=
  let b : BitVec 12 := BitVec.twoPow 12 i
  if d.attn.raw &&& b = b then d
  else { d with attn := { d.attn with
    raw := d.attn.raw ||| b
    seqNo := if d.attn.mask &&& b = b then d.attn.seqNo + 1 else d.attn.seqNo } }

/-- The attention word: masked bits read as 0 (R446). -/
def attnWord (a : Attn) : Nat := a.seqNo.toNat * 4096 + (a.raw &&& a.mask).toNat

/-- The attention bits that a record class sets by R445, besides ATTN.ERR. -/
def attnOfClass (cls : Nat) : List Nat :=
  if cls = hangReady then [10]
  else if cls = resetDoneCls || cls = hostLinkCls then [9]
  else if cls = pwrLimit || cls = pwrGuardCls then [8]
  else if [timeUnlock, timeHold, timeRoot, timeExtref, ttTime, ttBusy, ttIncomplete].contains cls then [7]
  else if [fabFecCe, fabFecUe, fabDrop, fabLink, fabIdent, rtBusy, rtIncomplete, fabCredit].contains cls then [6]
  else if cls = hbmFence || cls = hbmMapoutFull then [5]
  else []

/-- Keystone time in ns (R338). -/
def nowNs (d : Dev) : Nat := d.kt.now / 65536

/-- Raises a record: it waits for the error unit, and its class's attention bit is set. -/
def raiseRec (r : ErrRec) (d : Dev) : Dev :=
  let r := { r with kt := nowNs d % 2 ^ 64 }
  (attnOfClass r.cls).foldl (fun d i => attnSet i d)
    { d with err := { d.err with raised := d.err.raised ++ [r] } }

/-- Raises a record of a class with the class's kind. -/
def raise (cls unit : Nat) (ctx : Option Nat) (addr detail : Nat) (d : Dev) : Dev :=
  raiseRec { cls := cls, kind := kindOf cls, ctx := ctx, unit := unit, addr := addr, detail := detail } d

/-- Packs fields (value, width), the first at bit 0 (R479, the extra fields of a class). -/
def packFields : List (Nat × Nat) → Nat
  | [] => 0
  | (v, w) :: l => v % 2 ^ w + 2 ^ w * packFields l

/-- Raises a record with its class's extra fields: one string of bits over ERR.ADDR and then ERR.DETAIL (R479). -/
def raiseFields (cls unit : Nat) (ctx : Option Nat) (fields : List (Nat × Nat)) (d : Dev) : Dev :=
  raise cls unit ctx (packFields fields % 2 ^ 64) (packFields fields / 2 ^ 64) d

end Sys2Proof.Machine
end

