-- ==== Sys2Proof/Machine/Memory.lean ====
section
/-!
DEFINITION. Physical memory: the HBM map and home decks (10 R235 to R237, R256), poison (R243, R245),
fenced channels (R248), the host link (R257), the bench (R229, R231) and the joist rows (R71, R233),
and the deck's answer to accesses that meet a glue-up (11 R279, R281).
-/

namespace Sys2Proof.Machine

/-! ### HBM geometry -/

/-- Bytes of a channel's frames (R235). -/
def chanBytes : Nat := 366210 * 4096

/-- Active physical span (R235, R249). -/
def hbmSpan (h : Hbm) : Nat := h.active.length * chanBytes

/-- The range of an address: its start-relative address and its channel set (R236). -/
def hbmRange (h : Hbm) (pa : Nat) : Nat × List Nat :=
  if h.die then
    let a0 := h.active.filter (fun c => decide (c < 64))
    let half := a0.length * chanBytes
    if pa < half then (pa, a0) else (pa - half, h.active.filter (fun c => decide (64 ≤ c)))
  else (pa, h.active)

/-- `hbm_map` of R237: channel, pseudo-channel, offset in the channel, home deck. -/
def hbmMap (h : Hbm) (pa : Nat) : Nat × Nat × Nat × Nat :=
  let r := hbmRange h pa
  let c := r.2.length
  let f := r.1 / 4096
  let q := f / c
  let ch := r.2.getD ((f + q) % c) 0
  (ch, r.1 / 64 % 2, q * 4096 + r.1 % 4096, 10 * (ch / 64) + (ch + q) % 10)

/-- The home deck of a line (R237, R256). -/
def homeDeck (h : Hbm) (host : Bool) (pa : Nat) : Nat :=
  if host then pa / 4096 % 20 else (hbmMap h pa).2.2.2

/-- Whether the line's channel is fenced, its stack serves only the margin engine (R253, R497), or the address lies
beyond the active span. -/
def hbmLost (d : Dev) (pa : Nat) : Bool :=
  decide (hbmSpan d.hbmc ≤ pa)
    || (d.hbmc.fenced != 0 && d.hbmc.fenced.getLsbD (hbmMap d.hbmc pa).1)
    || (d.hbmc.testMode != 0 && d.hbmc.testMode.getLsbD ((hbmMap d.hbmc pa).1 / 16))

/-! ### Lines at their home decks (R16, R25, R243, R259, R260) -/

/-- The line of an address. -/
def lineOf (a : Nat) : Nat := a / 64 * 64

/-- The lines that `n` bytes from `a` meet. -/
def linesOf (a n : Nat) : List Nat :=
  if n = 0 then [] else (List.range ((a + n - 1) / 64 - a / 64 + 1)).map (fun i => lineOf a + 64 * i)

/-- Whether a held line is the one of an address. -/
def DeckLine.is (x : DeckLine) (host : Bool) (line : Nat) : Bool := x.host == host && x.line == line

/-- The line as its home deck holds it. -/
def deckLine (d : Dev) (host : Bool) (line : Nat) : Option DeckLine := d.deck.lines.find? (fun x => x.is host line)

/-- Whether the deck keeps the line. -/
def deckHolds (d : Dev) (host : Bool) (line : Nat) : Bool := (deckLine d host line).isSome

/-- Whether the memory beneath the decks delivers the line poisoned (R243, R248, R257). -/
def memPoisoned (d : Dev) (host : Bool) (line : Nat) : Bool :=
  if host then !d.hostp.link || mapGet false d.hostPoison line
  else hbmLost d line || mapGet false d.hbmPoison line

/-- Whether a read of the line delivers poison: the deck's poison bit where the deck holds the line, else that of the
memory beneath (R243). Every read of a fenced channel does (R248). -/
def linePoisoned (d : Dev) (host : Bool) (line : Nat) : Bool :=
  match deckLine d host line with
  | some x => x.poison || (!host && hbmLost d line)
  | none => memPoisoned d host line

/-- The first poisoned line that a read of `n` bytes meets. -/
def firstPoison (d : Dev) (host : Bool) (pa n : Nat) : Option Nat :=
  (linesOf pa n).find? (linePoisoned d host)

/-- The bytes at a physical address. -/
def readMem (d : Dev) (host : Bool) (pa n : Nat) : List Byte :=
  memRead (if host then d.host else d.hbm) pa n

/-- The little-endian number of `n` bytes at a physical address. -/
def readMemLe (d : Dev) (host : Bool) (pa n : Nat) : Nat := ofLe (readMem d host pa n)

/-- A HOST_MEM record: host address and the cause of R257. -/
def raiseHostMem (line cause : Nat) (d : Dev) : Dev := raise hostMem unitHost none line cause d

/-- Bytes into the memory of a line, without its deck. -/
def storeRaw (host : Bool) (pa : Nat) (bs : List Byte) (d : Dev) : Dev :=
  if host then { d with host := memWrite d.host pa bs } else { d with hbm := memWrite d.hbm pa bs }

/-- The mark of poison in the memory beneath a line. -/
def markMem (host : Bool) (line : Nat) (po : Bool) (d : Dev) : Dev :=
  if host then { d with hostPoison := mapPut false line po d.hostPoison }
  else { d with hbmPoison := mapPut false line po d.hbmPoison }

/-- The mark that host memory keeps of a line that the module has written whole and clean: the host platform decides
(R243, R256), so where a mark stood a free value says whether it stands on. -/
def hostCleaned (line : Nat) (d : Dev) : Dev :=
  if mapGet false d.hostPoison line then
    let d' := { d with free := d.free + 1 }
    if Config.freeNat d.free % 2 = 0 then markMem true line false d' else d'
  else d

/-- A held line replaced by `f` of it. -/
def deckMod (host : Bool) (line : Nat) (f : DeckLine → DeckLine) (d : Dev) : Dev :=
  { d with deck := { d.deck with lines := d.deck.lines.map (fun x => if x.is host line then f x else x) } }

/-- A line leaves the deck with nothing written back. -/
def deckDrop (host : Bool) (line : Nat) (d : Dev) : Dev :=
  { d with deck := { d.deck with lines := d.deck.lines.filter (fun x => !x.is host line) } }

/-- Counts a write that a fenced channel discards (R248). -/
def discardWrite (pa : Nat) (d : Dev) : Dev :=
  { d with hbmc := { d.hbmc with
      discards := mapMod 0 ((hbmMap d.hbmc pa).1) (fun x => x + 1) d.hbmc.discards } }

/-- The memory beneath shows again where a line's newer value is lost. -/
def showUnder (v : DeckLine) (d : Dev) : Dev :=
  match v.under with
  | some w => storeRaw v.host v.line (leBytes 64 w.toNat) d
  | none => d

/-- A dirty line of the deck reaches its memory with its poison (R25, R243, R256); a write to a fenced channel is
discarded and counted (R248), one to host memory over a link that is down is discarded with HOST_MEM (R257). -/
def lineBack (v : DeckLine) (d : Dev) : Dev :=
  if !v.dirty then showUnder v d
  else if v.host then
    if d.hostp.link then (if v.poison then markMem true v.line true d else hostCleaned v.line d)
    else raiseHostMem v.line 2 (showUnder v d)
  else if hbmLost d v.line then discardWrite v.line d
  else markMem false v.line v.poison d

/-- A line leaves its deck, written back if dirty. -/
def deckEvict (v : DeckLine) (d : Dev) : Dev := lineBack v (deckDrop v.host v.line d)

/-- Bank and set of a line in its deck (R259). -/
def deckSet (pa : Nat) : Nat :=
  bitsOf pa 9 6 * 512 + ((bitsOf pa 18 10 ^^^ bitsOf pa 27 19) ^^^ (bitsOf pa 36 28 ^^^ bitsOf pa 45 37))

/-- Key of the set of a line: its home deck, bank and set (R259). -/
def setKey (d : Dev) (host : Bool) (line : Nat) : Nat := homeDeck d.hbmc host line * 8192 + deckSet line

/-- Ways of a set that are not retired (R490). -/
def waysLeft (d : Dev) (key : Nat) : Nat := 12 - mapGet 0 d.deck.retired key

/-- Lines that a glue-up holds: no replacement takes them (R260). -/
def glueHolds (d : Dev) (x : DeckLine) : Bool := !x.host && d.glues.any (fun g => g.marks.contains x.line)

/-- The held line that a new line of the set replaces: the least recently used that no glue-up holds; none while a way
is free. The outer none says that no way can be had. -/
def victimOf (d : Dev) (key : Nat) : Option (Option DeckLine) :=
  let held := d.deck.lines.filter (fun x => setKey d x.host x.line == key)
  if held.length < waysLeft d key then some none
  else
    match (held.filter (fun x => !glueHolds d x)).getLast? with
    | some v => if waysLeft d key = 0 then none else some (some v)
    | none => none

/-- A line becomes the most recently used of its deck. -/
def deckTouch (host : Bool) (line : Nat) (dirty : Bool) (d : Dev) : Dev :=
  let old := (deckLine d host line).getD {}
  let rest := d.deck.lines.filter (fun x => !x.is host line)
  { d with deck := { d.deck with
    lines := { old with host := host, line := line, dirty := dirty || old.dirty } :: rest } }

/-- A line new to its deck, filled with the poison of its memory, or clean where a whole write follows (R243). -/
def deckFilled (host : Bool) (line : Nat) (po : Bool) (d : Dev) : Dev :=
  { d with deck := { d.deck with lines := { host := host, line := line, poison := po } :: d.deck.lines } }

/-- An access brings its line into the line's home deck (R16, R260): a held line becomes the most recently used, another
takes the way of the set's victim, which is written back. Nothing is kept of a fenced channel, over a link that is down,
or where no way can be had. `whole` says that a write of the whole line follows, which needs no fill. -/
def deckTake (host : Bool) (line : Nat) (whole : Bool) (d : Dev) : Dev :=
  if deckHolds d host line then deckTouch host line false d
  else if (if host then !d.hostp.link else hbmLost d line) then d
  else
    match victimOf d (setKey d host line) with
    | none => d
    | some v =>
      let d := match v with
        | some v => deckEvict v d
        | none => d
      deckFilled host line (!whole && memPoisoned d host line) d

/-- The lines of a read at their home decks. -/
def deckTakeAll (host : Bool) (ls : List Nat) (d : Dev) : Dev := ls.foldl (fun d l => deckTake host l false d) d

/-- Marks a line poisoned: in its deck where the deck holds it, to be written back with its poison, else in memory. -/
def poisonLine (host : Bool) (line : Nat) (d : Dev) : Dev :=
  if deckHolds d host line then deckMod host line (fun x => { x with dirty := true, poison := true }) d
  else markMem host line true d

/-- Clears a line's poison: a full-line write of clean data (R243). -/
def cleanLine (host : Bool) (line : Nat) (d : Dev) : Dev :=
  if deckHolds d host line then deckMod host line (fun x => { x with poison := false }) d
  else if host then hostCleaned line d
  else markMem false line false d

/-- A held line is dirty from now on; beneath a host line the host's own bytes stay (R256). -/
def deckDirty (host : Bool) (line : Nat) (d : Dev) : Dev :=
  match deckLine d host line with
  | some x =>
    if x.dirty then d
    else
      let u := if host then some (BitVec.ofNat 512 (readMemLe d true line 64)) else none
      deckMod host line (fun x => { x with dirty := true, under := u }) d
  | none => d

/-- Whether a write to a line is lost: to a fenced channel (R248), or to host memory over a link that is down unless the
deck holds the line as its own already (R257). -/
def writeLost (d : Dev) (host : Bool) (line : Nat) : Bool :=
  if host then !d.hostp.link && !(match deckLine d true line with | some x => x.dirty | none => false)
  else hbmLost d line

/-- A write of a line that is lost: counted, or a HOST_MEM record. -/
def loseWrite (host : Bool) (line : Nat) (d : Dev) : Dev :=
  if host then raiseHostMem line 2 d else discardWrite line d

/-- Stores bytes that lie within one line, at its home deck. A partial write keeps the line's poison (R243). -/
def writeInLine (host : Bool) (pa : Nat) (bs : List Byte) (d : Dev) : Dev :=
  let line := lineOf pa
  let whole := bs.length == 64
  if writeLost d host line then loseWrite host line d
  else
    let d := storeRaw host pa bs (deckDirty host line (deckTake host line whole d))
    if whole then cleanLine host line d else d

/-- Stores bytes at a physical address, line by line; `fuel` bounds the lines. -/
def writeMemGo (host : Bool) : Nat → Nat → List Byte → Dev → Dev
  | 0, _, _, d => d
  | fuel + 1, pa, bs, d =>
    if bs = [] then d
    else
      let k := 64 - pa % 64
      writeMemGo host fuel (pa + k) (bs.drop k) (writeInLine host pa (bs.take k) d)

/-- Stores bytes at a physical address. -/
def writeMem (host : Bool) (pa : Nat) (bs : List Byte) (d : Dev) : Dev :=
  writeMemGo host (bs.length / 64 + 2) pa bs d

/-- Bytes within one line of host memory that the host port or a Dovetail engine writes: they pass through the line's
deck without being kept (R256), so a held line is written back with them and leaves. `po` sends CXL data poison. -/
def hostPutLine (pa : Nat) (bs : List Byte) (po : Bool) (d : Dev) : Dev :=
  let line := lineOf pa
  if writeLost d true line then loseWrite true line d
  else
    let d := storeRaw true pa bs d
    let d := match deckLine d true line with
      | some v => deckEvict v d
      | none => d
    if po then markMem true line true d
    else if bs.length = 64 then hostCleaned line d else d

/-- Bytes that the host port or a Dovetail engine writes to host memory, line by line. -/
def hostPutGo : Nat → Nat → List Byte → Dev → Dev
  | 0, _, _, d => d
  | fuel + 1, pa, bs, d =>
    if bs = [] then d
    else
      let k := 64 - pa % 64
      hostPutGo fuel (pa + k) (bs.drop k) (hostPutLine pa (bs.take k) false d)

def hostPut (pa : Nat) (bs : List Byte) (d : Dev) : Dev := hostPutGo (bs.length / 64 + 2) pa bs d

/-! ### Bench (R229, R231) and joist rows (R71) -/

/-- Size of a bench. -/
def benchSize : Nat := 0x180000

/-- Key of a bench byte. -/
def benchKey (core a : Nat) : Nat := core * 2 ^ 21 + a

def benchRead (d : Dev) (core a n : Nat) : List Byte := memRead d.bench (benchKey core a) n

def benchLe (d : Dev) (core a n : Nat) : Nat := ofLe (benchRead d core a n)

/-- Whether one of the bench words that `n` bytes from `a` meet is poisoned. -/
def benchPoisoned (d : Dev) (core a n : Nat) : Bool :=
  if d.benchPoison = [] then false
  else if n = 0 then false
  else (List.range ((a + n - 1) / 8 - a / 8 + 1)).any
    (fun i => mapGet false d.benchPoison (benchKey core a / 8 + i))

/-- Poisons the bench words that `n` bytes from `a` meet. -/
def benchPoison (core a n : Nat) (d : Dev) : Dev :=
  if n = 0 then d
  else
    let ws := (List.range ((a + n - 1) / 8 - a / 8 + 1)).map (fun i => benchKey core a / 8 + i)
    { d with benchPoison := ws.foldl (fun m w => mapPut false w true m) d.benchPoison }

/-- Stores bytes in a bench; words that the write covers whole lose their poison (R243). -/
def benchWrite (core a : Nat) (bs : List Byte) (d : Dev) : Dev :=
  { d with
    bench := memWrite d.bench (benchKey core a) bs
    benchPoison :=
      if d.benchPoison = [] then []
      else d.benchPoison.filter (fun p =>
        !(decide (benchKey core a ≤ 8 * p.1) && decide (8 * p.1 + 8 ≤ benchKey core a + bs.length))) }

/-- Zeroes a core's bench, joist rows and their poison (R232). -/
def zeroCore (core : Nat) (d : Dev) : Dev :=
  { d with
    bench := memZero d.bench (benchKey core 0) (2 ^ 21)
    benchPoison := mapClear (benchKey core 0 / 8) (2 ^ 18) d.benchPoison
    joist := mapClear (core * 1024) 1024 d.joist }

/-- Zeroes a core's vector registers. -/
def zeroVx (core : Nat) (d : Dev) : Dev :=
  { d with vx := mapClear (core * 1024) 1024 d.vx }

def jrow (d : Dev) (core row : Nat) : JRow := mapGet {} d.joist (core * 1024 + row)

def setJrow (core row : Nat) (r : JRow) (d : Dev) : Dev :=
  { d with joist := mapPut {} (core * 1024 + row) r d.joist }

/-- The 544-byte record of a row: its span words, then its tag (R72, R190). -/
def packRow (r : JRow) : List Byte :=
  ((List.range 32).flatMap (fun j => leBytes 16 (r.words.getD j 0).toNat))
  ++ leBytes 32 (packFields [(toTwos 16 r.anchor, 16), (toTwos 16 r.eobs, 16), (r.rslot, 10),
    (bit01 r.valid, 1), (bit01 r.redo, 1), (bit01 r.int, 1), (bit01 r.s5, 1), (bit01 r.sister, 1),
    (bit01 r.poison, 1), (bit01 r.redone, 1), (0, 15), (r.count, 44), (0, 20), (r.nan.toNat, 32),
    (r.pinf.toNat, 32), (r.ninf.toNat, 32)])

/-- The row of a 544-byte record; reserved tag bits are not held. -/
def parseRow (bs : List Byte) : JRow :=
  let t := leAt bs 512 32
  { words := (List.range 32).map (fun j => BitVec.ofNat 128 (leAt bs (16 * j) 16))
    nan := BitVec.ofNat 32 (bitsOf t 159 128), pinf := BitVec.ofNat 32 (bitsOf t 191 160)
    ninf := BitVec.ofNat 32 (bitsOf t 223 192), count := bitsOf t 107 64, redone := bitOf t 48
    poison := bitOf t 47, sister := bitOf t 46, s5 := bitOf t 45, int := bitOf t 44, redo := bitOf t 43
    valid := bitOf t 42, rslot := bitsOf t 41 32, eobs := ofTwos 16 (bitsOf t 31 16)
    anchor := ofTwos 16 (bitsOf t 15 0) }

/-- A lane of a vector register (R108). -/
def vxLane (d : Dev) (core r lane : Nat) : BitVec 32 := mapGet 0 d.vx ((core * 16 + r) * 64 + lane)

def setVxLane (core r lane : Nat) (v : BitVec 32) (d : Dev) : Dev :=
  { d with vx := mapPut 0 ((core * 16 + r) * 64 + lane) v d.vx }

/-! ### Units -/

def queueNo : Queue → Nat
  | .l => 0 | .m => 1 | .v => 2 | .s => 3

def coreAt (d : Dev) (c : Nat) : Core := mapGet {} d.cores c

def modCore (c : Nat) (f : Core → Core) (d : Dev) : Dev := { d with cores := mapMod {} c f d.cores }

def queueAt (d : Dev) (c q : Nat) : QueueSt := mapGet {} d.queues (4 * c + q)

def modQueue (c q : Nat) (f : QueueSt → QueueSt) (d : Dev) : Dev :=
  { d with queues := mapMod {} (4 * c + q) f d.queues }

def ctxAt (d : Dev) (n : Nat) : Ctx := mapGet {} d.ctxs n

def modCtx (n : Nat) (f : Ctx → Ctx) (d : Dev) : Dev := { d with ctxs := mapMod {} n f d.ctxs }

def pflagAt (d : Dev) (k : Nat) : PFlag := mapGet {} d.flags k

def modPflag (k : Nat) (f : PFlag → PFlag) (d : Dev) : Dev := { d with flags := mapMod {} k f d.flags }

def chanAt (d : Dev) (m : Nat) : Chan := mapGet {} d.chans m

def modChan (m : Nat) (f : Chan → Chan) (d : Dev) : Dev := { d with chans := mapMod {} m f d.chans }

def portAt (d : Dev) (p : Nat) : Port := mapGet {} d.ports p

def modPort (p : Nat) (f : Port → Port) (d : Dev) : Dev := { d with ports := mapMod {} p f d.ports }

def ringAt (d : Dev) (r : Nat) : Ring := mapGet {} d.hostp.rings r

def modRing (r : Nat) (f : Ring → Ring) (d : Dev) : Dev :=
  { d with hostp := { d.hostp with rings := mapMod {} r f d.hostp.rings } }

/-- Clock of a cluster in 25 MHz steps (R19); 70 is 1.75 GHz. -/
def clusterClock (d : Dev) (k : Nat) : Nat := mapGet 70 d.pwr.clocks k

/-- Nanoseconds of `n` cycles of a cluster's clock, rounded up. -/
def cyclesNs (d : Dev) (k n : Nat) : Nat := (n * 40 + clusterClock d k - 1) / clusterClock d k

/-- The next draw of a free value of this machine: its number and the advanced counter. -/
def drawByte (d : Dev) : Byte × Dev := (Config.freeByte d.free, { d with free := d.free + 1 })

def drawNat (d : Dev) : Nat × Dev := (Config.freeNat d.free, { d with free := d.free + 1 })

/-- `n` free bytes. -/
def drawBytes : Nat → Dev → List Byte × Dev
  | 0, d => ([], d)
  | n + 1, d =>
    let r := drawBytes n { d with free := d.free + 1 }
    (Config.freeByte d.free :: r.1, r.2)

/-! ### Accesses that meet a glue-up (R279, R281) -/

/-- A counted abort of an attempt: marks, staged values and returned old values are dropped (R282);
after aborts 1 to 3 the coordinator waits, after the fourth the glue-up runs clamped (R283). -/
def glueAbort (d : Dev) (reason : Nat) (g : Glue) : Glue :=
  let k := g.core / 8
  let n := g.counted + 1
  { g with
    counted := n
    last := reason
    marks := []
    staged := []
    olds := []
    rets := []
    bad := []
    acked := []
    phase := if n < 4 then .backoff else .waitClamp
    retryAt := if n < 4 then nowNs d + cyclesNs d k (32 * 2 ^ n + 8 * k) else g.retryAt
    clampAt := if n < 4 then g.clampAt else nowNs d }

/-- Lines that a plain access cannot reach now: held by a committing glue-up or locked by a clamped
one (R279). -/
def lineHeld (d : Dev) (line : Nat) : Bool :=
  d.glues.any (fun g => (g.phase == .committed || g.clamped) && g.marks.contains line)

/-- A plain access to HBM lines: open glue-ups that mark one of them abort with CONFLICT_PLAIN (R279). -/
def plainAccess (lines : List Nat) (d : Dev) : Dev :=
  if d.glues = [] then d
  else { d with glues := d.glues.map (fun g =>
    if g.phase == .marking && !g.clamped && lines.any (fun l => g.marks.contains l)
    then glueAbort d 1 g else g) }

/-- Whether plain access to `n` bytes waits for a line that a glue-up holds (R279). -/
def accessHeld (d : Dev) (host : Bool) (pa n : Nat) : Bool :=
  !host && d.glues != [] && (linesOf pa n).any (lineHeld d)

/-- A read of `n` bytes outside any glue-up that no held line makes wait: marks of open glue-ups are lost, and the lines
come to their decks (R16, R260, R279). -/
def deckRead (host : Bool) (pa n : Nat) (d : Dev) : Dev :=
  let ls := linesOf pa n
  deckTakeAll host ls (if host then d else plainAccess ls d)

end Sys2Proof.Machine
end

