-- ==== Sys2Proof/Machine/Kalaz.lean ====
section
/-!
DEFINITION. Kalaz capture (20 R513 to R518): the records and what is lost.
-/

namespace Sys2Proof.Machine

/-- Bytes of a number, most significant first. -/
def beBytes (n v : Nat) : List Byte := (leBytes n v).reverse

/-- Whether a context's inputs are captured. -/
def kzCtx (d : Dev) (c : Nat) : Bool :=
  d.kz.en && bitOf (d.kz.bitmap.getD (c / 8) 0).toNat (c % 8)

/-- Whether the capture ring can take a record now (R517). -/
def kzRoom (d : Dev) : Bool :=
  d.hostp.link && decide ((d.kz.tail - d.kz.head).toNat < 2 ^ d.kz.log2)

/-- Phase bit of record `n` in a ring of 2^log2 (R434). -/
def phaseOf (n log2 : Nat) : Nat := 1 - n / 2 ^ log2 % 2

/-- Writes one record in the next slot (R514). -/
def kzPut (typ ctx a b : Nat) (digest : List Byte) (d : Dev) : Dev :=
  let n := d.kz.tail.toNat
  let bs := leBytes 8 (packFields [(typ, 8), (ctx, 12), (0, 12), (d.kz.rseq.toNat, 32)])
    ++ leBytes 8 (nowNs d) ++ leBytes 8 a ++ padTo 32 digest
    ++ leBytes 8 (packFields [(b, 32), (d.kt.now % 65536, 16), (0, 15), (phaseOf n d.kz.log2, 1)])
  let d := hostPut (d.kz.base + 64 * (n % 2 ^ d.kz.log2)) bs d
  { d with kz := { d.kz with tail := d.kz.tail + 1, rseq := d.kz.rseq + 1 } }

/-- The LOST record takes the first free slot after a loss (R515). -/
def kzFlushLost (d : Dev) : Dev :=
  if d.kz.en && d.kz.lostNew != 0 && kzRoom d then
    let d := kzPut 9 0 d.kz.lostNew 0 [] d
    { d with kz := { d.kz with lostNew := 0 } }
  else d

/-- A capture record: written, or lost when the ring is full or the host link down (R517). -/
def kzRecord (typ ctx a b : Nat) (digest : List Byte) (d : Dev) : Dev :=
  let d := kzFlushLost d
  if kzRoom d then kzPut typ ctx a b digest d
  else { d with kz := { d.kz with lost := min (d.kz.lost + 1) (2 ^ 32 - 1), lostNew := d.kz.lostNew + 1 } }

/-- A capture record of a context, if that context is captured. -/
def kzFor (typ ctx a b : Nat) (digest : List Byte) (d : Dev) : Dev :=
  if kzCtx d ctx then kzRecord typ ctx a b digest d else d

/-- SM3 as the 32 bytes of a digest field. -/
def sm3Bytes (bs : List Byte) : List Byte := beBytes 32 (Config.sm3 bs).toNat

/-- The HOST_READ record of a host line that a deck reads from host memory for a context (R515). -/
def kzHostRead (ctx line : Nat) (d : Dev) : Dev :=
  if d.kz.hostMem then kzFor 6 ctx line 0 (sm3Bytes (readMem d true line 64)) d else d

/-- The host lines of a range that a read takes from host memory: those that no deck holds. -/
def hostFills (d : Dev) (pa n : Nat) : List Nat :=
  if d.hostp.link then (linesOf pa n).filter (fun l => !deckHolds d true l) else []

/-- The HOST_READ records of the lines that a read of `n` bytes of host memory brings in (R515). -/
def kzHostReads (ctx : Nat) (lines : List Nat) (d : Dev) : Dev := lines.foldl (fun d l => kzHostRead ctx l d) d

end Sys2Proof.Machine
end

