-- ==== Sys2Proof/Machine/Xlate.lean ====
section
/-!
DEFINITION. Address translation (13 R330 to R333) and accesses through device-virtual addresses.
-/

namespace Sys2Proof.Machine

/-- Why a command stops: its class, ERR.ADDR, the bits of ERR.DETAIL from 176 on (R483), the reduction
slot whose RED.ERROR it sets (R76), the unit if not the queue, what it may have left half written
(R201), what it leaves poisoned (R105, R128), the state with the effects that stand if not the state it started from, the
gauge counts of the elements that it leaves as poison (R146), and the class and address of a record that follows its own
(R102). -/
structure Err where
  cls : Nat
  addr : Nat := 0
  hi : Nat := 0
  red : Option Nat := none
  unit : Option Nat := none
  dsts : List Region := []
  pois : List Region := []
  dev : Option Dev := none
  gauge : List GaugeDelta := []
  after : Option (Nat × Nat) := none
  deriving DecidableEq, Repr

/-- A command that cannot start now, that waits for its time (R197), that has reached its CLAMP (R196),
or that fails. -/
inductive Stop where
  | wait
  | timed
  | atClamp (id : Nat) (qmask : BitVec 4)
  | err (e : Err)
  deriving DecidableEq, Repr

/-- Failure with a class alone. -/
def failCls {α : Type} (cls : Nat) : Except Stop α := .error (.err { cls := cls })

def failAddr {α : Type} (cls addr : Nat) : Except Stop α := .error (.err { cls := cls, addr := addr })

/-- A failure that also fails a reduction (R76). -/
def failRed {α : Type} (cls slot : Nat) : Except Stop α :=
  .error (.err { cls := cls, addr := slot, red := some slot })

/-- XLATE_FAULT or XLATE_PERM: address, and level in ERR.DETAIL from bit 176 (R332, R483). -/
def failXlate {α : Type} (cls : Nat) (va : Int) (level : Nat) : Except Stop α :=
  .error (.err { cls := cls, addr := toTwos 64 va, hi := level })

/-- PTE fields (R331). -/
def pteAddr (p : Nat) : Nat := bitsOf p 59 12 * 4096
def pteNoRemote (p : Nat) : Bool := bitOf p 4
def pteHost (p : Nat) : Bool := bitOf p 3
def pteWrite (p : Nat) : Bool := bitOf p 2
def pteLeaf (p : Nat) : Bool := bitOf p 1
def pteValid (p : Nat) : Bool := bitOf p 0

/-- Index bits of a level, and the size of what its entries name: leaf page and next table (R330). -/
def levelIndex (level va : Nat) : Nat :=
  if level = 1 then bitsOf va 47 37 else if level = 2 then bitsOf va 36 26 else bitsOf va 25 16
def levelPage (level : Nat) : Nat := if level = 2 then 2 ^ 26 else 2 ^ 16
def levelNext (level : Nat) : Nat := if level = 1 then 2 ^ 14 else 2 ^ 13

/-- The walk of R330 from a table at one level: the leaf entry and its level, or the failure of R332. A table line that a
glue-up holds makes the walk wait (R279). -/
def walkFrom (d : Dev) (va : Nat) : Nat → Nat → Nat → Except Stop (Nat × Nat)
  | 0, _, _ => failXlate xlateFault va 3
  | fuel + 1, level, table =>
    let pa := table + 8 * levelIndex level va
    if accessHeld d false pa 8 then .error .wait
    else if linePoisoned d false (lineOf pa) then failAddr poisonCls pa
    else
      let p := readMemLe d false pa 8
      if !pteValid p || bitsOf p 63 60 != 0 || bitsOf p 11 5 != 0 then failXlate xlateFault va level
      else if pteLeaf p then
        if level = 1 || pteAddr p % levelPage level != 0
            || (!pteHost p && decide (hbmSpan d.hbmc < pteAddr p + levelPage level)) then
          failXlate xlateFault va level
        else .ok (p, level)
      else if level = 3 || pteHost p || pteAddr p % levelNext level != 0 then
        failXlate xlateFault va level
      else walkFrom d va fuel (level + 1) (pteAddr p)

/-- What a translation gives: the leaf entry and its level. -/
def walk (d : Dev) (ctx va : Nat) : Except Stop (Nat × Nat) :=
  walkFrom d va 3 1 (ctxAt d ctx).ptRoot

/-- The addresses of the entries that a walk reads (R330). -/
def walkReads (d : Dev) (va : Nat) : Nat → Nat → Nat → List Nat
  | 0, _, _ => []
  | fuel + 1, level, table =>
    let pa := table + 8 * levelIndex level va
    let p := readMemLe d false pa 8
    if pteLeaf p then [pa] else pa :: walkReads d va fuel (level + 1) (pteAddr p)

/-- A walk's reads at their home decks (R330). -/
def walkVisit (ctx va : Nat) (d : Dev) : Dev :=
  (walkReads d va 3 1 (ctxAt d ctx).ptRoot).foldl (fun d pa => deckRead false pa 8 d) d

/-- Keeps at most the number of entries that a cache holds (R330). -/
def trimCache (unit : Nat) (l : List XEntry) : List XEntry :=
  let cap := if unit = 20 then 4096 else 2048
  (l.filter (fun e => e.unit == unit)).take cap ++ l.filter (fun e => e.unit != unit)

/-- The translation that a cache holds of an address. -/
def cachedEntry (d : Dev) (unit ctx va : Nat) : Option XEntry :=
  d.xcache.find? (fun e => e.unit == unit && e.ctx == ctx && e.page == va / 2 ^ 16)

/-- A translation enters a unit's cache in place of the one that the cache holds of the page. -/
def cachePut (unit ctx va : Nat) (w : Nat × Nat) (d : Dev) : Dev :=
  let page := va / 2 ^ 16
  let e : XEntry := { unit := unit, ctx := ctx, page := page, pte := w.1, level := w.2 }
  let rest := d.xcache.filter (fun x => !(x.unit == unit && x.ctx == ctx && x.page == page))
  walkVisit ctx va { d with xcache := trimCache unit (e :: rest) }

/-- The entry that an access uses. A cached entry spares the walk; where the tables no longer give it, it is used or the
walk's answer is: until a flush completes either may be (R333), and a free value decides. -/
def pickEntry (unit ctx : Nat) (va : Nat) (d : Dev) : Except Stop ((Nat × Nat) × Dev) :=
  match cachedEntry d unit ctx va with
  | none =>
    (match walk d ctx va with
     | .error e => .error e
     | .ok w => .ok (w, cachePut unit ctx va w d))
  | some e =>
    let old := (e.pte, e.level)
    match walk d ctx va with
    | .ok w =>
      if old = w then .ok (old, d)
      else
        let r := drawNat d
        if r.1 % 2 = 0 then .ok (old, r.2) else .ok (w, cachePut unit ctx va w r.2)
    | .error (.err x) =>
      if x.cls = poisonCls then .ok (old, d)
      else
        let r := drawNat d
        if r.1 % 2 = 0 then .ok (old, r.2) else .error (.err x)
    | .error _ => .ok (old, d)

/-- Translation of a device-virtual address by a unit's cache (0 to 19 a cluster, 20 the I/O die):
the physical address, whether it is host memory, and the entry. -/
def xlate (unit ctx : Nat) (wr : Bool) (va : Int) (d : Dev) :
    Except Stop (Bool × Nat × Nat × Dev) :=
  if va < 0 ∨ (2 : Int) ^ 48 ≤ va then failXlate xlateFault va 0
  else
    let a := va.toNat
    match pickEntry unit ctx a d with
    | .error e => .error e
    | .ok r =>
      let p := r.1.1
      if wr && !pteWrite p then failXlate xlatePerm va r.1.2
      else .ok (pteHost p, pteAddr p + a % levelPage r.1.2, p, r.2)

/-- A plain access of `n` bytes at their home decks: it waits on a held line, takes the marks of open glue-ups, and brings
the lines to their decks (R16, R260, R279). -/
def deckVisit (host : Bool) (pa n : Nat) (d : Dev) : Except Stop Dev :=
  if accessHeld d host pa n then .error .wait else .ok (deckRead host pa n d)

/-- A plain write of `n` bytes at their home decks, which `writeMem` then makes: it waits on a held line and takes the
marks of open glue-ups. -/
def deckVisitW (host : Bool) (pa n : Nat) (d : Dev) : Except Stop Dev :=
  if accessHeld d host pa n then .error .wait else .ok (if host then d else plainAccess (linesOf pa n) d)

/-- The HOST_MEM record of a host read that meets a link that is down or returns poison (R257). -/
def hostReadRec (po : Option Nat) (d : Dev) : Dev :=
  match po with
  | some l => raiseHostMem l (if d.hostp.link then 3 else 2) d
  | none => d

/-- The first line of a host read that its deck does not hold and host memory delivers poisoned (R257). -/
def hostPoisonRead (d : Dev) (pa n : Nat) : Option Nat :=
  (linesOf pa n).find? (fun l => !deckHolds d true l && memPoisoned d true l)

/-- What a read of `n` bytes of host memory records: HOST_MEM causes and captured fills, of the lines as they stood at
`d0` (R257, R515). -/
def hostReadDone (ctx : Nat) (d0 : Dev) (pa n : Nat) (d : Dev) : Dev :=
  hostReadRec (hostPoisonRead d0 pa n) (kzHostReads ctx (hostFills d0 pa n) d)

/-- Reads `n` bytes at a device-virtual address, page by page: the bytes, whether one of their lines is poisoned, and
where they lie. -/
def vReadGo (unit ctx : Nat) : Nat → Int → Nat → Dev → Except Stop (List Byte × Bool × List Region × Dev)
  | 0, _, _, d => .ok ([], false, [], d)
  | fuel + 1, va, n, d =>
    if n = 0 then .ok ([], false, [], d)
    else
      match xlate unit ctx false va d with
      | .error e => .error e
      | .ok (host, pa, _, d0) =>
        let k := min n (65536 - pa % 65536)
        match deckVisit host pa k d0 with
        | .error e => .error e
        | .ok d =>
          match vReadGo unit ctx fuel (va + k) (n - k) d with
          | .error e => .error e
          | .ok (bs, po, rs, d') =>
            .ok (readMem d host pa k ++ bs, (firstPoison d host pa k).isSome || po, Region.mem host pa k :: rs,
              if host then hostReadDone ctx d0 pa k d' else d')

def vReadAt (unit ctx : Nat) (va : Int) (n : Nat) (d : Dev) : Except Stop (List Byte × Bool × List Region × Dev) :=
  vReadGo unit ctx (n / 65536 + 2) va n d

def vRead (unit ctx : Nat) (va : Int) (n : Nat) (d : Dev) : Except Stop (List Byte × Bool × Dev) :=
  match vReadAt unit ctx va n d with
  | .error e => .error e
  | .ok (bs, po, _, d) => .ok (bs, po, d)

/-- A read that consumes poison (R245): a poisoned line stops it with the address. -/
def vTake (unit ctx : Nat) (va : Int) (n : Nat) (d : Dev) : Except Stop (List Byte × Dev) :=
  match vRead unit ctx va n d with
  | .error e => .error e
  | .ok (bs, po, d) =>
    if po then .error (.err { cls := poisonCls, addr := va.toNat, dev := some d }) else .ok (bs, d)

/-- The host lines that a write of `n` bytes fills first: those it covers in part (R515). -/
def partFills (d : Dev) (pa n : Nat) : List Nat :=
  (hostFills d pa n).filter (fun l => decide (l < pa) || decide (pa + n < l + 64))

/-- Stores bytes at a device-virtual address. -/
def vWriteGo (unit ctx : Nat) : Nat → Int → List Byte → Dev → Except Stop Dev
  | 0, _, _, d => .ok d
  | fuel + 1, va, bs, d =>
    if bs = [] then .ok d
    else
      match xlate unit ctx true va d with
      | .error e => .error e
      | .ok (host, pa, _, d) =>
        let k := 65536 - pa % 65536
        match deckVisitW host pa (min k bs.length) d with
        | .error e => .error e
        | .ok d =>
          let d := if host then kzHostReads ctx (partFills d pa (min k bs.length)) d else d
          vWriteGo unit ctx fuel (va + k) (bs.drop k) (writeMem host pa (bs.take k) d)

def vWrite (unit ctx : Nat) (va : Int) (bs : List Byte) (d : Dev) : Except Stop Dev :=
  vWriteGo unit ctx (bs.length / 65536 + 2) va bs d

/-! ### Accesses of a Dovetail engine (R295, R303) -/

/-- Whether a core's bench is in reset (R303, R498). -/
def benchDown (d : Dev) (core : Nat) : Bool :=
  d.resets.any (fun j => (j.domain == 2 && j.unit.toNat == unitCore core)
    || (j.domain == 3 && j.unit.toNat == unitCluster (core / 8)))

/-- Whether a line of HBM is out of reach: its deck does not hold it and its channel's controller is in reset (R303,
R498). -/
def hbmDown (d : Dev) (pa : Nat) : Bool :=
  d.resets != [] && !deckHolds d false (lineOf pa)
    && d.resets.any (fun j => j.domain == 1 && j.unit.toNat == unitHbm (hbmMap d.hbmc pa).1)

/-- A bus error (R303). -/
def busError {α : Type} : Except Stop α := failCls dvBuserr

/-- Reads `n` bytes of one line, each with the line's poison. A host line passes through its deck without being kept. -/
def dvLoadLine (u ctx : Nat) (va : Int) (n : Nat) (d : Dev) : Except Stop (List (Byte × Bool) × Dev) :=
  match xlate u ctx false va d with
  | .error e => .error e
  | .ok (host, pa, _, d) =>
    if !host && hbmDown d pa then busError
    else
      let go := fun (d' : Dev) =>
        let po := (firstPoison d host pa n).isSome
        (.ok ((readMem d' host pa n).map (fun b => (b, po)), d') : Except Stop (List (Byte × Bool) × Dev))
      if host then go (hostReadDone ctx d pa n d)
      else
        match deckVisit false pa n d with
        | .error e => .error e
        | .ok d => go d

/-- Reads bytes line by line; `fuel` bounds the lines. -/
def dvLoad (u ctx : Nat) : Nat → Int → Nat → Dev → Except Stop (List (Byte × Bool) × Dev)
  | 0, _, _, d => .ok ([], d)
  | fuel + 1, va, n, d =>
    if n = 0 then .ok ([], d)
    else
      let k := min n (64 - (va % 64).toNat)
      match dvLoadLine u ctx va k d with
      | .error e => .error e
      | .ok (xs, d) =>
        match dvLoad u ctx fuel (va + k) (n - k) d with
        | .error e => .error e
        | .ok (ys, d) => .ok (xs ++ ys, d)

/-- A read that consumes poison (R245). -/
def dvTake (u ctx : Nat) (va : Int) (n : Nat) (d : Dev) : Except Stop (List Byte × Dev) :=
  match dvLoad u ctx (n / 64 + 2) va n d with
  | .error e => .error e
  | .ok (xs, d) =>
    if xs.any (·.2) then .error (.err { cls := poisonCls, addr := va.toNat, dev := some d }) else .ok (xs.map (·.1), d)

/-- Stores bytes in one line, poison with them. -/
def dvStore (u ctx : Nat) (va : Int) (bs : List Byte) (po : Bool) (d : Dev) : Except Stop Dev :=
  match xlate u ctx true va d with
  | .error e => .error e
  | .ok (host, pa, _, d) =>
    if host then .ok (hostPutLine pa bs po d)
    else if hbmDown d pa then busError
    else
      match deckVisitW false pa bs.length d with
      | .error e => .error e
      | .ok d =>
        let d := writeMem false pa bs d
        .ok (if po && !hbmLost d pa then poisonLine false (lineOf pa) d else d)

end Sys2Proof.Machine
end

