-- ==== Sys2Proof/Machine/Packets.lean ====
section
/-!
DEFINITION. Packets of the fabric: layouts and checks (15 R380 to R384, R394), routing lookups (16 R398 to
R406), bays (14 R355 to R358), drops (15 R391) and credits (16 R407, R408).
-/

namespace Sys2Proof.Machine

/-! ### Check codes (R384) -/

/-- Eight shifts of a CRC-16 with polynomial 0x1021, most significant bit first. -/
def crc16Shift : Nat → Nat → Nat
  | 0, c => c
  | n + 1, c => crc16Shift n (if bitOf c 15 then ((2 * c) ^^^ 0x1021) % 65536 else 2 * c % 65536)

/-- CRC-16, initial value 0xFFFF. -/
def crc16 (bs : List Byte) : Nat := bs.foldl (fun c b => crc16Shift 8 (c ^^^ (b.toNat * 256))) 0xFFFF

/-- Eight shifts of CRC-32C, least significant bit first (the usual bit order of that code). -/
def crc32cShift : Nat → Nat → Nat
  | 0, c => c
  | n + 1, c => crc32cShift n (if c % 2 = 1 then (c / 2) ^^^ 0x82F63B78 else c / 2)

/-- CRC-32C: initial value 0xFFFF_FFFF and final inversion. -/
def crc32c (bs : List Byte) : Nat :=
  (bs.foldl (fun c b => crc32cShift 8 (c ^^^ b.toNat)) 0xFFFFFFFF) ^^^ 0xFFFFFFFF

/-! ### Data packets (R382) -/

/-- A data packet: header fields and payload flits in full. -/
structure DataPkt where
  vc : Nat := 0
  dlx : Bool := false
  hops : Nat := 0
  kind : Nat := 0
  epoch : Bool := false
  last : Bool := false
  ack : Bool := false
  dmod : Nat := 0
  smod : Nat := 0
  poison : Nat := 0
  dctx : Nat := 0
  sctx : Nat := 0
  rop : Nat := 0
  xid : BitVec 32 := 0
  pidx : Nat := 0
  pcount : Nat := 0
  dva : Nat := 0
  len : Nat := 0
  deadline : Nat := 0
  signal : Nat := 0
  siggen : Nat := 0
  status : Nat := 0
  stag : BitVec 32 := 0
  rva : Nat := 0
  payload : List Byte := []
  deriving DecidableEq, Repr

/-- Header bytes 0x00 to 0x37. -/
def dataHead (p : DataPkt) : List Byte :=
  leBytes 8 (packFields [(p.vc, 3), (bit01 p.dlx, 1), (p.hops, 5), (0, 7), (p.kind, 4), (bit01 p.epoch, 1),
    (bit01 p.last, 1), (bit01 p.ack, 1), (0, 1), (p.dmod, 16), (p.smod, 16), (p.poison, 8)])
  ++ leBytes 8 (packFields [(p.dctx, 12), (p.sctx, 12), (p.rop, 4), (0, 4), (p.xid.toNat, 32)])
  ++ leBytes 8 (packFields [(p.pidx, 32), (p.pcount, 32)])
  ++ leBytes 8 (packFields [(p.dva, 48), (p.len, 10)])
  ++ leBytes 8 (p.deadline % 2 ^ 64)
  ++ leBytes 8 (packFields [(p.signal, 16), (p.siggen, 8), (p.status, 8), (p.stag.toNat, 32)])
  ++ leBytes 8 (p.rva % 2 ^ 48)

/-- Payload flits of `len` bytes: zero bytes to the end of the last flit. -/
def payloadFlits (bs : List Byte) : List Byte := padTo ((bs.length + 63) / 64 * 64) bs

/-- The bytes of a packet with its checks (R384). -/
def packData (p : DataPkt) : List Byte :=
  let h := dataHead p
  let h := h ++ leBytes 2 (crc16 (h.drop 2)) ++ leBytes 2 0
  h ++ leBytes 4 (crc32c ((h.drop 2).take 0x38 ++ p.payload)) ++ p.payload

def parseData (bs : List Byte) : DataPkt :=
  let a := leAt bs 0 8
  let b := leAt bs 8 8
  let s := leAt bs 0x28 8
  { vc := bitsOf a 2 0, dlx := bitOf a 3, hops := bitsOf a 8 4, kind := bitsOf a 19 16, epoch := bitOf a 20,
    last := bitOf a 21, ack := bitOf a 22, dmod := bitsOf a 39 24, smod := bitsOf a 55 40,
    poison := bitsOf a 63 56, dctx := bitsOf b 11 0, sctx := bitsOf b 23 12, rop := bitsOf b 27 24,
    xid := BitVec.ofNat 32 (bitsOf b 63 32), pidx := leAt bs 0x10 4, pcount := leAt bs 0x14 4,
    dva := leAt bs 0x18 6, len := bitsOf (leAt bs 0x18 8) 57 48, deadline := leAt bs 0x20 8,
    signal := bitsOf s 15 0, siggen := bitsOf s 23 16, status := bitsOf s 31 24,
    stag := BitVec.ofNat 32 (bitsOf s 63 32), rva := leAt bs 0x30 6, payload := bs.drop 64 }

/-- DP.HCRC of a header (R384). -/
def hcrcOk (bs : List Byte) : Bool := leAt bs 0x38 2 == crc16 ((bs.drop 2).take 0x36)

/-- DP.CRC of a packet (R384). -/
def dataCrcOk (bs : List Byte) : Bool := leAt bs 0x3C 4 == crc32c ((bs.drop 2).take 0x38 ++ bs.drop 64)

/-- Whether the flit count agrees with DP.LEN (R382). -/
def lengthOk (bs : List Byte) : Bool :=
  let n := (parseData bs).len
  decide (n ≤ 512) && bs.length == 64 + (n + 63) / 64 * 64

/-! ### Control packets (R380, R394) -/

structure CtrlPkt where
  vc : Nat := 5
  dlx : Bool := false
  hops : Nat := 0
  typ : Nat := 0
  epoch : Bool := false
  loc : Bool := false
  srcrt : Bool := false
  sunasg : Bool := false
  dmod : Nat := 0
  smod : Nat := 0
  deadline : Nat := 0
  body : List Byte := []
  deriving DecidableEq, Repr

/-- Bytes 0x00 to 0x0B. -/
def ctrlHead (p : CtrlPkt) : List Byte :=
  leBytes 8 (packFields [(p.vc, 3), (bit01 p.dlx, 1), (p.hops, 5), (0, 7), (p.typ, 8), (bit01 p.epoch, 1),
    (bit01 p.loc, 1), (bit01 p.srcrt, 1), (bit01 p.sunasg, 1), (0, 4), (p.dmod, 16), (p.smod, 16)])
  ++ leBytes 4 (p.deadline % 2 ^ 32)

def packCtrl (p : CtrlPkt) : List Byte :=
  let h := ctrlHead p
  let b := padTo 48 p.body
  h ++ leBytes 4 (crc32c (h.drop 2 ++ b)) ++ b

def parseCtrl (bs : List Byte) : CtrlPkt :=
  let a := leAt bs 0 8
  { vc := bitsOf a 2 0, dlx := bitOf a 3, hops := bitsOf a 8 4, typ := bitsOf a 23 16, epoch := bitOf a 24,
    loc := bitOf a 25, srcrt := bitOf a 26, sunasg := bitOf a 27, dmod := bitsOf a 47 32,
    smod := bitsOf a 63 48, deadline := leAt bs 8 4, body := (bs.drop 0x10).take 48 }

/-- CP.CRC (R384). -/
def ctrlCrcOk (bs : List Byte) : Bool :=
  bs.length == 64 && leAt bs 0x0C 4 == crc32c ((bs.drop 2).take 10 ++ bs.drop 0x10)

/-- A packet with the fields that change at a hop: virtual channel, dateline bit and hop count. -/
def setHop (vc : Nat) (dlx : Bool) (hops : Nat) (bs : List Byte) : List Byte :=
  putLe bs 0 2 (packFields [(vc, 3), (bit01 dlx, 1), (hops, 5), (0, 7)])

/-- The 64-bit deadline whose low 32 bits a control packet carries, nearest the keystone time (R381). -/
def ctrlDeadline (now low : Nat) : Nat :=
  let d : Int := ofTwos 32 (low + 2 ^ 32 - now % 2 ^ 32)
  ((now : Int) + d).toNat

/-! ### Drops (R391) -/

/-- Drop reasons, in the order of the table of R391. -/
def dropFec : Nat := 1
def dropStomp : Nat := 2
def dropHcrc : Nat := 3
def dropCrc : Nat := 4
def dropLength : Nat := 5
def dropType : Nat := 6
def dropExpired : Nat := 7
def dropResidence : Nat := 8
def dropLink : Nat := 9
def dropNoroute : Nat := 10
def dropIndex : Nat := 11

/-- Counts a drop at a port. -/
def countDrop (port reason : Nat) (d : Dev) : Dev :=
  modPort port (fun p => { p with drops := mapMod 0 reason (fun n => n + 1) p.drops }) d

/-- A dropped packet: its counter at the ingress port, or for INDEX the context's alone, and the FAB_DROP record of the
reasons that have one. The extra fields are those of a header that passed its check, with the leaf and DP.DMOD of R422 after
them. -/
def dropPkt (port : Option Nat) (reason : Nat) (head : Bool) (p : DataPkt) (d : Dev) : Dev :=
  let d := match port with
    | some n => if reason = dropIndex then d else countDrop n reason d
    | none => d
  if reason = dropFec ∨ reason = dropStomp ∨ reason = dropLink then d
  else
    let n := port.getD 31
    let x := if head then [(n, 8), (reason, 8), (p.smod, 16), (p.sctx, 12), (p.xid.toNat, 32), (p.stag.toNat, 32)]
        ++ (if reason = dropNoroute then [(bit01 p.epoch, 1), (p.dmod, 16)] else [])
      else [(n, 8), (reason, 8)]
    let r : ErrRec :=
      { cls := fabDrop, kind := kindOf fabDrop, unit := (match port with | some n => unitPort n | none => unitSwitch),
        addr := packFields x % 2 ^ 64, detail := packFields x / 2 ^ 64 }
    raiseRec r d

/-- A dropped control packet. -/
def dropCtrl (port : Option Nat) (reason : Nat) (d : Dev) : Dev := dropPkt port reason false {} d

/-! ### Deadlines (R388) -/

/-- Whether a packet of this deadline is dropped now. -/
def expired (now deadline : Nat) : Bool := decide (deadline < now) || decide (now + 100002 < deadline)

/-! ### Routing (R398 to R406) -/

/-- A routing entry. -/
def leafEntry (d : Dev) (port : Nat) (leaf : Bool) (m : Nat) : Nat :=
  (mapGet 0 d.tab.leaves ((port * 2 + bit01 leaf) * 65536 + m)).toNat

/-- The class of a virtual channel: 0 request and management, 1 reply, 2 collective. -/
def routeClass (vc : Nat) : Nat :=
  if vc = 2 ∨ vc = 3 then 1 else if vc = 4 then 2 else 0

/-- Where a lookup sends a packet: egress port, virtual channel and dateline bit; none is NOROUTE. `inPort` is
none for a packet injected here (R398). Management packets take no dateline. -/
def route (d : Dev) (inPort : Option Nat) (epoch : Bool) (vc : Nat) (dlx : Bool) (m : Nat) : Option (Nat × Nat × Bool) :=
  let e := leafEntry d (inPort.getD d.tab.inj) epoch m
  let c := routeClass vc
  let out := if c = 1 then bitsOf e 25 21 else if c = 2 then bitsOf e 20 16 else bitsOf e 30 26
  let cross := vc ≤ 3 && (if c = 1 then bitOf e 14 else bitOf e 15)
  let leafOk := if epoch then d.tab.okB else d.tab.okA
  if !leafOk || !bitOf e 31 || decide (18 ≤ out) || inPort == some out || (cross && dlx) then none
  else if cross then some (out, vc / 2 * 2 + 1, true)
  else some (out, vc, dlx)

/-- Whether a port carries a packet: every kind in ROUTED, source-routed management also in LOCAL (R375). -/
def carries (p : Port) (srcrt : Bool) : Bool := p.state == .routed || (srcrt && p.state == .localSt)

/-- Whether the module at the far end of a port has told the identifier `m`. -/
def peerIs (p : Port) (m : Nat) : Bool :=
  let w := leAt p.peer 8 8
  bitOf w 16 && bitsOf w 15 0 == m

/-- Whether a port carries a packet; in LOCAL it carries management packets for the module at its far end, too (R375). -/
def carriesPkt (p : Port) (k : Pkt) : Bool :=
  let c := parseCtrl k.bytes
  carries p (k.ctrl && (c.srcrt || peerIs p c.dmod))

/-- Hands a packet to an egress port. -/
def toEgress (out : Nat) (k : Pkt) (d : Dev) : Dev := modPort out (fun p => { p with egress := p.egress ++ [k] }) d

/-- Frees the ingress buffer that a packet held (R405, R409). -/
def freeBuffer (port : Option Nat) (vc flits : Nat) (d : Dev) : Dev :=
  match port with
  | none => d
  | some n => modPort n (fun p => { p with
      ownFreed := p.ownFreed.set vc ((p.ownFreed.getD vc 0 + flits) % 65536) }) d

/-- Flits of a packet. -/
def flitsOf (bs : List Byte) : Nat := (bs.length + 63) / 64

/-! ### Bays (R355 to R358) -/

/-- The timetable entry of a port's present bay. -/
def bayEntry (d : Dev) (port : Nat) : Nat :=
  (mapGet 0 d.tab.live (port * 4096 + nowNs d / 128 % 4096)).toNat

/-- Whether `n` flits leave before the present bay ends: 0.32 ns a slot, 0.64 ns at half width. -/
def fitsBay (d : Dev) (half : Bool) (n : Nat) : Bool :=
  let left := 128 * 65536 - d.kt.now % (128 * 65536)
  decide ((if half then 2 else 1) * n * 32 * 65536 ≤ 100 * left)

/-- Whether reserved bays run: none while they are held, and from the bay boundary after a hold (R353). -/
def baysRun (d : Dev) : Bool := !d.kt.bayHold && decide (d.kt.bayFrom ≤ nowNs d)

/-- Whether a packet may leave in the present bay of a port (R353, R357): collective packets in a bay
reserved to their transfer, other traffic in an open bay. -/
def bayTakes (d : Dev) (port : Nat) (k : Pkt) : Bool :=
  let e := bayEntry d port
  if k.vc = 4 then
    let p := parseData k.bytes
    bitsOf e 63 62 == 1 && baysRun d && bitsOf e 59 48 == p.sctx && bitsOf e 47 32 == p.smod
      && bitsOf e 31 0 == p.xid.toNat
  else bitsOf e 63 62 == 0

/-! ### Credits (R407, R408) -/

/-- Buffer flits of a virtual channel. -/
def vcBuffer (vc : Nat) : Nat := [2048, 2048, 1024, 1024, 4096, 64].getD vc 0

/-- Credits that a port holds on a virtual channel. -/
def credits (p : Port) (vc : Nat) : Int :=
  (vcBuffer vc : Int) - (((p.sent.getD vc 0 + 65536 - p.freed.getD vc 0) % 65536 : Nat) : Int)

/-! ### Injection -/

/-- Injects a packet of this module: delivered here if it names this module (R387), else by the table of RT.INJ
(R398); none where its egress refuses it. -/
def inject (k : Pkt) (dmod : Nat) (srcPort : Option Nat) (d : Dev) : Option Dev :=
  let k := { k with at_ := nowNs d }
  match srcPort with
  | some out => if out < 18 && carriesPkt (portAt d out) k then some (toEgress out k d) else none
  | none =>
    if d.tab.modidValid && dmod == d.tab.modid then some { d with fab := { d.fab with loc := d.fab.loc ++ [k] } }
    else
      match route d none d.tab.epoch k.vc false dmod with
      | none => none
      | some (out, vc, dlx) =>
        if carriesPkt (portAt d out) k then
          some (toEgress out { k with vc := vc, bytes := setHop vc dlx 0 k.bytes } d)
        else none

end Sys2Proof.Machine
end

