-- ==== Sys2Proof/Machine/Flags.lean ====
section
/-!
DEFINITION. Physical and virtual flags (13 R310 to R316, 08 R184, R185).
-/

namespace Sys2Proof.Machine

/-- Fields of a flag-table entry (R313). -/
def fltValid (e : Nat) : Bool := bitOf e 31
def fltRemote (e : Nat) : Bool := bitOf e 30
def fltGen (e : Nat) : Nat := bitsOf e 29 22
def fltCluster (e : Nat) : Nat := bitsOf e 16 12
def fltPflag (e : Nat) : Nat := bitsOf e 11 0

/-- Key of the physical flag that an entry names. -/
def fltKey (e : Nat) : Nat := fltCluster e * 4096 + fltPflag e

/-- The HBM address of the table entry of a virtual flag. -/
def flagEntryAddr (d : Dev) (ctx v : Nat) : Nat := (ctxAt d ctx).flagBase + 4 * v

/-- The translation of a virtual flag that a cluster holds (R314); unit 20, the I/O die, holds none. -/
def flagCached (d : Dev) (u ctx v : Nat) : Option FEntry :=
  d.fcache.find? (fun e => e.unit == u && e.ctx == ctx && e.v == v)

/-- Translation of a virtual flag by a unit (R314): the physical flag's key, FLAG_XLATE, or the consumption of a
poisoned table line. A table line that a glue-up holds makes the unit wait (R279). -/
def flagXl (d : Dev) (u ctx v : Nat) : Except Stop Nat :=
  if (ctxAt d ctx).flagCount ≤ v then failAddr flagXlate v
  else
    let pa := flagEntryAddr d ctx v
    let c := flagCached d u ctx v
    if c.isNone && accessHeld d false pa 4 then .error .wait
    else if c.isNone && linePoisoned d false (lineOf pa) then failAddr poisonCls pa
    else
      let e := match c with
        | some x => x.entry
        | none => readMemLe d false pa 4
      let p := pflagAt d (fltKey e)
      if fltValid e && p.mapped && p.owner == ctx && !p.tomb then .ok (fltKey e)
      else failAddr flagXlate v

/-- What a translation leaves: a table read at its home deck, and the entry in its cluster's cache of 1,024 (R314). -/
def flagVisit (u ctx : Nat) (d : Dev) (v : Nat) : Dev :=
  if (flagCached d u ctx v).isSome || decide ((ctxAt d ctx).flagCount ≤ v) then d
  else
    let pa := flagEntryAddr d ctx v
    let d := deckRead false pa 4 d
    if 20 ≤ u then d
    else
      let l := { unit := u, ctx := ctx, v := v, entry := readMemLe d false pa 4 } :: d.fcache
      { d with fcache := (l.filter (fun e => e.unit == u)).take 1024 ++ l.filter (fun e => e.unit != u) }

/-- A virtual flag's entry leaves every cache: the host has written its table entry (R315). -/
def flagForget (ctx v : Nat) (d : Dev) : Dev :=
  { d with fcache := d.fcache.filter (fun e => !(e.ctx == ctx && e.v == v)) }

/-- Translation of several virtual flags. -/
def flagXlAll (d : Dev) (u ctx : Nat) : List Nat → Except Stop (List Nat)
  | [] => .ok []
  | v :: vs =>
    match flagXl d u ctx v, flagXlAll d u ctx vs with
    | .error e, _ => .error e
    | _, .error e => .error e
    | .ok k, .ok ks => .ok (k :: ks)

/-- A set: no effect on a set flag, and a tombstoned flag ignores it (R185, R315). `vc` is the order
that a queue's set carries for the sentinel (R203). -/
def flagSetKey (k : Nat) (vc : Option (Nat × List Nat)) (d : Dev) : Dev :=
  let p := pflagAt d k
  if p.value || p.tomb then d
  else
    let d := modPflag k (fun p => { p with value := true }) d
    { d with flagVc := mapPut (0, []) k (vc.getD (0, [])) d.flagVc }

/-- A clear or consume: one that finds a REMOTE flag set advances GEN (R316). -/
def flagClearKey (k : Nat) (d : Dev) : Dev :=
  let p := pflagAt d k
  if !p.value || p.tomb then d
  else modPflag k (fun p => { p with value := false, gen := if p.remote then p.gen + 1 else p.gen }) d

/-- Whether a physical flag still belongs to a context. -/
def flagMine (d : Dev) (ctx k : Nat) : Bool := (pflagAt d k).mapped && (pflagAt d k).owner == ctx

/-- A set by a command that translated the flag at its issue; one unmapped since ignores it (R314, R315). -/
def flagSetOwn (ctx k : Nat) (vc : Option (Nat × List Nat)) (d : Dev) : Dev :=
  if flagMine d ctx k then flagSetKey k vc d else d

/-- A clear by a command that translated the flag at its issue. -/
def flagClearOwn (ctx k : Nat) (d : Dev) : Dev := if flagMine d ctx k then flagClearKey k d else d

/-- A flag becomes tombstoned (R315). -/
def flagTombKey (k : Nat) (d : Dev) : Dev :=
  modPflag k (fun p => { p with mapped := false, tomb := true, tombAt := nowNs d }) d

end Sys2Proof.Machine
end

