-- ==== Sys2Proof/Machine/Faults.lean ====
section
/-!
DEFINITION. Context faults (19 R487, 08 R201), completion records that wait to be written (17 R443), and
what a stop does to the units that serve a context (12 R305, 07 R168, 11 R285).
-/

namespace Sys2Proof.Machine

/-! ### The context record in HBM (R325, R326) -/

/-- CTX.STATE codes. -/
def ctxStateNo : CtxState → Nat
  | .free => 0 | .idle => 1 | .resident => 2 | .saved => 3 | .faulted => 4 | .draining => 5

/-- HBM address of a context record. -/
def ctxRecAddr (d : Dev) (c : Nat) : Nat := d.hostp.ctxTable + 256 * c

/-- Writes CTX.STATE, CTX.FAULT_CODE and CTX.STALE_COUNT into the record in HBM. The write takes the marks of open
glue-ups; behind a line that a glue-up holds it waits for the release (R279). -/
def syncCtx (c : Nat) (d : Dev) : Dev :=
  let x := ctxAt d c
  let a := ctxRecAddr d c
  if accessHeld d false a 256 then
    { d with ctxDirty := if d.ctxDirty.contains c then d.ctxDirty else d.ctxDirty ++ [c] }
  else
    let b0 := ctxStateNo x.state + 8 * x.prio + 64 * bit01 x.sentinel
    let d := plainAccess [lineOf a, lineOf (a + 0xB8)] d
    let d := writeMem false a (leBytes 1 b0) d
    writeMem false (a + 0xB8) (leBytes 8 (x.faultCode + 65536 * (x.staleCount % 2 ^ 48))) d

/-- A change of CTX.STATE. -/
def setCtxState (c : Nat) (st : CtxState) (d : Dev) : Dev :=
  syncCtx c (modCtx c (fun x => { x with state := st }) d)

/-- One more packet in CTX.STALE_COUNT (R319). -/
def countStale (c : Nat) (d : Dev) : Dev :=
  syncCtx c (modCtx c (fun x => { x with staleCount := (x.staleCount + 1) % 2 ^ 48 }) d)

/-! ### Completions -/

/-- Hands a completion to its ring (R443); COMPLETION_RECORD writes its record. -/
def pushComp (ring : Nat) (c : Comp) (d : Dev) : Dev :=
  modRing ring (fun r => { r with comps := r.comps ++ [{ c with kt := nowNs d }] }) d

/-- The completion of a launch (R439). -/
def launchComp (l : Launch) (error : Nat) : Comp :=
  { seqNo := l.seqNo, kind := 0x10, late := l.late, error := error, glue := l.glue, detail := l.first / 65536 }

/-! ### Dovetail status (R293) -/

/-- DV.STATUS: state, error member, tries and done bytes. -/
def dvStatus (state err tries done : Nat) : Nat :=
  fieldAt state 4 0 + fieldAt err 8 4 + fieldAt tries 3 12 + fieldAt done 48 16

/-- A write of DV.STATUS (R293). -/
def dvStatusPut (m ctx addr v : Nat) (d : Dev) : Except Stop Dev :=
  dvStore (m / 32) ctx ((addr : Int) + 0x38) (leBytes 8 v) false d

/-- A late write joins the others (R279). -/
def addLate (x : Late) (d : Dev) : Dev := { d with late := d.late ++ [x] }

/-- DV.STATUS of a descriptor that stops: behind a line that a glue-up holds the write waits for the release; a page that
does not translate takes none. -/
def dvMark (m ctx : Nat) (addr : Nat) (state err tries done : Nat) (d : Dev) : Dev :=
  let v := dvStatus state err tries done
  match dvStatusPut m ctx addr v d with
  | .ok d' => d'
  | .error .wait => addLate (.mark m ctx addr v) d
  | .error _ => d


/-- Stops the channels of a faulted context: the running descriptor is marked halted with DV_STOP and no
flag is set (R305). -/
def stopChannels (c : Nat) (d : Dev) : Dev :=
  d.chans.foldl (fun d (p : Nat × Chan) =>
    if p.2.owner = some c then
      match p.2.run with
      | some r =>
        if r.halted then d
        else
          let d := dvMark p.1 c r.addr 3 5 r.tries p.2.doneBytes d
          modChan p.1 (fun ch => { ch with run := some { r with halted := true, err := 5 }, stopped := true }) d
      | none => modChan p.1 (fun ch => { ch with stopped := true }) d
    else d) d

/-! ### Stopping a context -/

/-- Free bytes over a region that a stopped command was writing (R201, R10): of a joist row its words and its tag. -/
def scrambleRegion (core : Nat) (r : Region) (d : Dev) : Dev :=
  match r with
  | .mem host pa n => let x := drawBytes n d; writeMem host pa x.1 x.2
  | .bench a n => let x := drawBytes n d; benchWrite core a x.1 x.2
  | .rows row n =>
    (List.range n).foldl (fun d i =>
      let x := drawBytes 544 d
      setJrow core (row + i) (parseRow x.1) x.2) d
  | .vx r =>
    let x := drawNat d
    (List.range 64).foldl (fun d l => setVxLane core r l (BitVec.ofNat 32 (x.1 / 2 ^ (32 * l))) d) x.2

/-- Poison over a region (R105, R128): bench words, lines, or rows; vector registers hold none. -/
def poisonRegion (core : Nat) (r : Region) (d : Dev) : Dev :=
  match r with
  | .mem host pa n => (linesOf pa n).foldl (fun d l => poisonLine host l d) d
  | .bench a n => benchPoison core a n d
  | .rows row n =>
    (List.range n).foldl (fun d i => setJrow core (row + i) { jrow d core (row + i) with poison := true } d) d
  | .vx _ => d

/-- Leaves undefined data in the destinations of the issued commands of a context (R201). -/
def scrambleFlights (c : Nat) (d : Dev) : Dev :=
  d.queues.foldl (fun d (p : Nat × QueueSt) =>
    if (coreAt d (p.1 / 4)).resident = some c then
      p.2.inflight.foldl (fun d f => f.dsts.foldl (fun d r => scrambleRegion (p.1 / 4) r d) d) d
    else d) d

/-! ### Gauge flush (R146, R148) -/

/-- Device-virtual address of a slot. -/
def gaugeAddr (d : Dev) (ctx slot : Nat) : Nat := (ctxAt d ctx).gaugeBase + 320 * slot

/-- A saturating add of `v` to a little-endian counter of `n` bytes at `off`; whether it saturated. -/
def satAdd (off n v : Nat) (x : List Byte × Bool) : List Byte × Bool :=
  let s := leAt x.1 off n + v
  if s < 2 ^ (8 * n) then (putLe x.1 off n s, x.2) else (putLe x.1 off n (2 ^ (8 * n) - 1), true)

/-- A slot's 296 bytes of counters and settings with a share added. -/
def gaugeAdd (g : GaugeDelta) (bs : List Byte) : List Byte :=
  let x := g.bins.foldl (fun x b => satAdd (4 * b) 4 1 x) (bs, false)
  let x := satAdd 0x100 8 g.written x
  let x := satAdd 0x108 8 g.ovf x
  let x := satAdd 0x110 8 g.van x
  let x := satAdd 0x118 8 g.stall x
  let x := satAdd 0x120 4 g.poison x
  if x.2 then putLe x.1 0x127 1 (leAt x.1 0x127 1 % 128 + 128) else x.1

/-- Adds a share to its slot at the slot's home deck. A poisoned slot is consumed (R245). -/
def gaugeFlush (unit ctx : Nat) (g : GaugeDelta) (d : Dev) : Except Stop Dev :=
  let va := gaugeAddr d ctx g.slot
  match vTake unit ctx va 0x128 d with
  | .error e => .error e
  | .ok (bs, d) => vWrite unit ctx va (gaugeAdd g bs) d

def gaugeFlushAll (unit ctx : Nat) : List GaugeDelta → Dev → Except Stop Dev
  | [], d => .ok d
  | g :: gs, d =>
    match gaugeFlush unit ctx g d with
    | .error e => .error e
    | .ok d => gaugeFlushAll unit ctx gs d

/-! ### What a stop drops -/

/-- Planer commands of a context end at a panel boundary; the counts of their committed panels reach their slots (R164,
R168). -/
def dropPlaner (c : Nat) (d : Dev) : Dev :=
  let d := d.planers.foldl (fun d p => (p.2.filter (fun j => j.ctx == c)).foldl (fun d j =>
    j.gauge.foldl (fun d g => match gaugeFlush p.1 c g d with | .ok d => d | .error _ => d) d) d) d
  let kept := d.planers.map (fun p => (p.1, p.2.filter (fun j => j.ctx != c)))
  { d with planers := kept.filter (fun p => p.2 != []) }

/-- Open glue-ups of a context's queues and Planers abort with no effect; committed ones finish (R285), and a submission
group is the host port's. -/
def dropGlues (c : Nat) (d : Dev) : Dev :=
  { d with glues := d.glues.filter (fun g => g.ctx != c || g.phase == .committed || decide (640 ≤ g.id)) }

/-- Outstanding launches complete with the fault code (R487). -/
def failLaunches (c code : Nat) (d : Dev) : Dev :=
  let ls := (ctxAt d c).launches
  let d := modCtx c (fun x => { x with launches := [] }) d
  ls.foldl (fun d l => pushComp l.ring (launchComp l code) d) d

/-- A context fault (R487): the record, and for a context not already faulted the stop of everything it
runs, CTX.STATE 4, CTX.FAULT_CODE and the attention bit. -/
def faultCtx (c : Nat) (r : ErrRec) (d : Dev) : Dev :=
  let r := { r with ctx := some c, kind := if kindOf r.cls = 3 then 3 else 2 }
  let x := ctxAt d c
  if x.state = .free ∨ x.state = .faulted then raiseRec r d
  else
    let d := dropGlues c (dropPlaner c (stopChannels c (scrambleFlights c d)))
    let d := modCtx c (fun x => { x with
      faultCode := if x.faultCode = 0 then r.cls else x.faultCode, wants := false }) d
    attnSet 4 (raiseRec r (failLaunches c r.cls (setCtxState c .faulted d)))

/-! ### Late writes of the channels (R279, R304, R309) -/

/-- A record of a channel: the descriptor address, and channel and other fields. -/
def dvRecord (m ctx : Nat) (addr : Nat) (tag : BitVec 32) (cls eaddr : Nat) (more : List (Nat × Nat)) : ErrRec :=
  { cls := cls, kind := kindOf cls, ctx := some ctx, unit := unitDovetail (m / 16), tag := tag, addr := eaddr,
    detail := packFields ((m % 16, 8) :: (addr, 48) :: more) }

/-- Sets a flag field of a descriptor (bit 15 valid), which its cluster translates (R314). -/
def dvFlagSet (m ctx field : Nat) (d : Dev) : Except Stop Dev :=
  let v := bitsOf field 13 0
  if !bitOf field 15 then .ok d
  else
    match flagXl d (m / 32) ctx v with
    | .error e => .error e
    | .ok k => .ok (flagSetKey k none (flagVisit (m / 32) ctx d v))

/-- DV.FAIL of a halted descriptor (R304): behind a held table line it waits; a failed translation is marked with DV_FLAG
and faults the context, and so does the consumption of a poisoned table line (R245, R309). -/
def dvFailSet (m ctx addr : Nat) (tag : BitVec 32) (field : Nat) (d : Dev) : Dev :=
  match dvFlagSet m ctx field d with
  | .ok d => d
  | .error (.err e) =>
    let ch := chanAt d m
    let d := if e.cls = flagXlate then dvMark m ctx addr 3 7 (ch.run.getD {}).tries ch.doneBytes d else d
    let d := if e.cls = flagXlate then modChan m (fun ch => { ch with run := ch.run.map (fun r => { r with err := 7 }) }) d
      else d
    faultCtx ctx (dvRecord m ctx addr tag e.cls e.addr []) d
  | .error _ => addLate (.flag m ctx addr tag field) d

/-- A late write is tried. -/
def lateDue (d : Dev) : Late → Dev
  | .mark m ctx addr v =>
    (match dvStatusPut m ctx addr v d with
     | .ok d' => d'
     | .error .wait => addLate (.mark m ctx addr v) d
     | .error _ => d)
  | .flag m ctx addr tag field => dvFailSet m ctx addr tag field d

/-- What awaited a held line is written: context records and the channels' late writes (R279). -/
def syncDue (d : Dev) : Dev :=
  let d := d.ctxDirty.foldl (fun d c => syncCtx c d) { d with ctxDirty := [] }
  d.late.foldl lateDue { d with late := [] }

end Sys2Proof.Machine
end

