-- ==== Sys2Proof/Machine/Formats.lean ====
section
/-!
DEFINITION. The element formats and the conversion between them (02: R28 to R35, R39 to R44, R562).
-/

namespace Sys2Proof.Machine

/-- An exact value: a finite one is ±m × 2^e (m = 0 is a signed zero). -/
inductive Val where
  | fin (neg : Bool) (m : Nat) (e : Int)
  | inf (neg : Bool)
  | nan
  deriving DecidableEq, Repr

/-- The parameters of a format (R28, R30, R36). `maxM` × 2^`maxE` is the largest finite magnitude. -/
structure FmtP where
  width : Nat
  isInt : Bool
  w : Nat
  p : Nat
  bias : Int
  hasInf : Bool
  nanEnc : Option Nat
  infEnc : Nat
  maxM : Nat
  maxE : Int
  bound : Int
  deriving DecidableEq, Repr

/-- The formats of R28, by format code. A reserved code has width 0. -/
def fmtP : Nat → FmtP
  | 0 => ⟨16, false, 8, 7, 127, true, some 0x7FC0, 0x7F80, 255, 120, 128⟩
  | 1 => ⟨16, false, 5, 10, 15, true, some 0x7E00, 0x7C00, 2047, 5, 16⟩
  | 2 => ⟨8, false, 5, 2, 15, true, some 0x7E, 0x7C, 7, 13, 16⟩
  | 3 => ⟨8, false, 4, 3, 7, false, some 0x7F, 0, 7, 6, 9⟩
  | 4 => ⟨4, false, 2, 1, 1, false, none, 0, 3, 1, 3⟩
  | 5 => ⟨8, true, 0, 0, 0, false, none, 0, 127, 0, 7⟩
  | 6 => ⟨4, true, 0, 0, 0, false, none, 0, 7, 0, 3⟩
  | 7 => ⟨32, false, 8, 23, 127, true, some 0x7FC00000, 0x7F800000, 16777215, 104, 128⟩
  | 8 => ⟨64, false, 11, 52, 1023, true, some 0x7FF8000000000000, 0x7FF0000000000000,
          9007199254740991, 971, 1024⟩
  | 9 => ⟨32, true, 0, 0, 0, false, none, 0, 2147483647, 0, 31⟩
  | _ => ⟨0, true, 0, 0, 0, false, none, 0, 0, 0, 0⟩

/-- Format codes that R28 defines. -/
def fmtKnown (c : Nat) : Bool := decide (c ≤ 9)

/-- Formats that allow the panel bit (R28). -/
def fmtPanelOk (c : Nat) : Bool := c == 2 || c == 3 || c == 4

/-- Formats that are matrix operands (R28). -/
def fmtMatrix (c : Nat) : Bool := decide (c ≤ 6)

/-- Bits of an element of format `c`. -/
def fmtWidth (c : Nat) : Nat := (fmtP c).width

/-- Element decoding (R30 to R32), without panel scale. -/
def decodeElem (c bits : Nat) : Val :=
  let f := fmtP c
  if f.isInt then
    let v := ofTwos f.width bits
    .fin (decide (v < 0)) v.natAbs 0
  else
    let s := bitOf bits (f.width - 1)
    let e := bitsOf bits (f.width - 2) f.p
    let fr := bits % 2 ^ f.p
    let emin : Int := 1 - f.bias
    if e = 0 then .fin s fr (emin - f.p)
    else if f.hasInf && e == 2 ^ f.w - 1 then (if fr = 0 then .inf s else .nan)
    else if c == 3 && e == 15 && fr == 7 then .nan
    else .fin s (2 ^ f.p + fr) ((e : Int) - f.bias - f.p)

/-- A signalling NaN of binary32 or binary64 (R36). -/
def isSignalling (c bits : Nat) : Bool :=
  let f := fmtP c
  (c == 7 || c == 8) && bitsOf bits (f.width - 2) f.p == 2 ^ f.w - 1
    && bits % 2 ^ f.p != 0 && !bitOf bits (f.p - 1)

/-- A value under a panel scale byte (R34). -/
def scaleVal (s : Nat) : Val → Val
  | .fin n m e => if s = 0xFF then .nan else .fin n m (e + (s : Int) - 127)
  | .inf n => if s = 0xFF then .nan else .inf n
  | .nan => .nan

/-- Whether the value is zero. -/
def Val.isZero : Val → Bool
  | .fin _ m _ => m == 0
  | _ => false

/-- Whether the value is a NaN. -/
def Val.isNan : Val → Bool
  | .nan => true
  | _ => false

/-- Whether the value is finite. -/
def Val.isFin : Val → Bool
  | .fin _ _ _ => true
  | _ => false

/-- The sign of a value; a NaN counts as positive. -/
def Val.neg : Val → Bool
  | .fin n _ _ => n
  | .inf n => n
  | .nan => false

/-- The term exponent e(x) of R54 of a finite non-zero value. -/
def Val.expo : Val → Option Int
  | .fin _ m e => if m = 0 then none else some ((Nat.log2 m : Int) + 1 + e)
  | _ => none

/-- The exact product of two values; ∞ × 0 and NaN give NaN (R47, R50). -/
def Val.mul : Val → Val → Val
  | .nan, _ => .nan
  | _, .nan => .nan
  | .fin a m e, .fin b n f => .fin (a != b) (m * n) (e + f)
  | .inf a, .fin b n _ => if n = 0 then .nan else .inf (a != b)
  | .fin a m _, .inf b => if m = 0 then .nan else .inf (a != b)
  | .inf a, .inf b => .inf (a != b)

/-- floor(x / 2^L) of a finite value (R47). -/
def enterFloor (l : Int) : Val → Int
  | .fin neg m e => floorShift (if neg then -(m : Int) else (m : Int)) (e - l)
  | _ => 0

/-- Comparison of finite values: whether a ≤ b exactly (+0 = −0). -/
def finLe (an : Bool) (am : Nat) (ae : Int) (bn : Bool) (bm : Nat) (be : Int) : Bool :=
  if am = 0 && bm = 0 then true
  else if am = 0 then !bn
  else if bm = 0 then an
  else if an && !bn then true
  else if !an && bn then false
  else if an then leScaled bm be am ae
  else leScaled am ae bm be

/-- Exact order on numbers: whether a ≤ b; a NaN is not comparable. -/
def Val.le : Val → Val → Bool
  | .nan, _ => false
  | _, .nan => false
  | .fin a m e, .fin b n f => finLe a m e b n f
  | .inf a, .inf b => a || !b
  | .inf a, .fin _ _ _ => a
  | .fin _ _ _, .inf b => !b

/-! ### Rounding (R40) -/

/-- `round_magnitude` of R40 on the exact magnitude num / den × 2^q (den > 0, num > 0): the integer n
and the quantum exponent k, and whether the result is inexact. `pp` is the format's fraction bits and
`emin` its least exponent. -/
def roundMag (isInt : Bool) (pp : Nat) (emin : Int) (mode : RoundMode) (sgn : Bool) (num den : Nat)
    (q : Int) (r16 : Nat) : Nat × Int × Bool :=
  let e0 : Int := (Nat.log2 num : Int) - (Nat.log2 den : Int)
  let e0 := if leScaled den e0 num 0 then e0 else e0 - 1
  let e := e0 + q
  let k := if isInt then 0 else max e emin - pp
  let sh := q - k
  let a := if 0 ≤ sh then num * 2 ^ sh.toNat else num
  let b := if 0 ≤ sh then den else den * 2 ^ (-sh).toNat
  let lo := a / b
  let rem := a % b
  let up := match mode with
    | .rne => decide (b < 2 * rem) || (decide (2 * rem = b) && lo % 2 == 1)
    | .rz => false
    | .ru => decide (0 < rem) && !sgn
    | .rd => decide (0 < rem) && sgn
    | .sr => decide (2 ^ 16 ≤ rem * 2 ^ 16 / b + r16)
  (lo + bit01 up, k, decide (rem ≠ 0))

/-- `d` of R40: the fraction of one step, cut to 16 bits, with `lo` and `k`. -/
def stepFraction (pp : Nat) (emin : Int) (num den : Nat) (q : Int) : Nat × Nat × Int :=
  let e0 : Int := (Nat.log2 num : Int) - (Nat.log2 den : Int)
  let e0 := if leScaled den e0 num 0 then e0 else e0 - 1
  let k := max (e0 + q) emin - pp
  let sh := q - k
  let a := if 0 ≤ sh then num * 2 ^ sh.toNat else num
  let b := if 0 ≤ sh then den else den * 2 ^ (-sh).toNat
  (a / b, a % b * 2 ^ 16 / b, k)

/-- The encoding of ±n × 2^k, which the float format represents. -/
def encodeFin (c : Nat) (neg : Bool) (n : Nat) (k : Int) : Nat :=
  let f := fmtP c
  let s := bit01 neg * 2 ^ (f.width - 1)
  let emin : Int := 1 - f.bias
  if n = 0 then s
  else
    let e := (Nat.log2 n : Int) + k
    if e < emin then s + shiftBy n (k - (emin - f.p))
    else s + (e + f.bias).toNat * 2 ^ f.p + (shiftBy n (k - (e - f.p)) - 2 ^ f.p)

/-- The encoding of ±M (R30). -/
def encodeMax (c : Nat) (neg : Bool) : Nat := encodeFin c neg (fmtP c).maxM (fmtP c).maxE

/-- The encoding of ±∞ in a format that has it. -/
def encodeInf (c : Nat) (neg : Bool) : Nat :=
  (fmtP c).infEnc + bit01 neg * 2 ^ ((fmtP c).width - 1)

/-- The largest or smallest integer of an integer format. -/
def encodeIntEdge (c : Nat) (neg : Bool) : Nat :=
  let w := (fmtP c).width
  if neg then 2 ^ (w - 1) else 2 ^ (w - 1) - 1

/-! ### IEEE status flags: invalid, division by zero, overflow, underflow, inexact from bit 0 (R36) -/

def fInvalid : BitVec 5 := 1
def fDivZero : BitVec 5 := 2
def fOverflow : BitVec 5 := 4
def fUnderflow : BitVec 5 := 8
def fInexact : BitVec 5 := 16

/-- What a conversion gives for one element: its bits, what it reports (R44) and the flags (R562). -/
structure ConvRes where
  bits : Nat
  ovf : Bool
  van : Bool
  nanEvent : Bool
  flags : BitVec 5
  deriving DecidableEq, Repr

/-- The overflow outcome of R42: whether the result is infinite rather than ±M. -/
def overflowInf (mode : RoundMode) (sat neg : Bool) : Bool :=
  if sat then false
  else match mode with
    | .rne => true
    | .sr => true
    | .rz => false
    | .ru => !neg
    | .rd => neg

/-- Whether a rounded magnitude n × 2^k overflows format `c` (R42). -/
def overflows (c : Nat) (neg : Bool) (n : Nat) (k : Int) : Bool :=
  let f := fmtP c
  if f.isInt then
    decide ((if neg then 2 ^ (f.width - 1) else 2 ^ (f.width - 1) - 1) < n)
  else !leScaled n k f.maxM f.maxE

/-- Whether IEEE arithmetic calls the exact value tiny after rounding (R36): rounded with unbounded
exponent range it lies below the smallest normal. -/
def tinyAfter (c : Nat) (mode : RoundMode) (sgn : Bool) (num den : Nat) (q : Int) (r16 : Nat) : Bool :=
  let f := fmtP c
  let r := roundMag false f.p (-100000) mode sgn num den q r16
  !leScaled 1 (1 - f.bias) r.1 r.2.1

/-- Conversion of the exact non-zero magnitude num / den × 2^q (R40, R42, R44, R562). -/
def convertRat (c : Nat) (mode : RoundMode) (sat : Bool) (neg : Bool) (num den : Nat) (q : Int)
    (r16 : Nat) : ConvRes :=
  let f := fmtP c
  let r := roundMag f.isInt f.p (1 - f.bias) mode neg num den q r16
  let n := r.1
  let k := r.2.1
  let long := c == 7 || c == 8
  if overflows c neg n k then
    let bits :=
      if f.isInt then encodeIntEdge c neg
      else if f.hasInf && overflowInf mode sat neg then encodeInf c neg
      else encodeMax c neg
    ⟨bits, true, false, false, if long then fOverflow ||| fInexact else 0⟩
  else if f.isInt then
    let v := if neg then toTwos f.width (-(n : Int)) else n
    ⟨v, false, n == 0, false, 0⟩
  else
    let bits := encodeFin c neg n k
    let small := n == 0 || !leScaled 1 (1 - f.bias) n k
    let fl : BitVec 5 :=
      if long && r.2.2 then
        fInexact ||| (if tinyAfter c mode neg num den q r16 then fUnderflow else 0)
      else 0
    ⟨bits, false, small, false, fl⟩

/-- Conversion of a value into format `c` without panel (R39, R43, R44). `snan`: the source is a
signalling NaN. -/
def convert (c : Nat) (mode : RoundMode) (sat : Bool) (r16 : Nat) (snan : Bool) (v : Val) : ConvRes :=
  let f := fmtP c
  match v with
  | .fin neg m e =>
    if m = 0 then
      ⟨if f.isInt then 0 else encodeFin c neg 0 0, false, false, false, 0⟩
    else convertRat c mode sat neg m 1 e r16
  | .inf neg =>
    if f.isInt then ⟨encodeIntEdge c neg, true, false, false, 0⟩
    else if f.hasInf then ⟨encodeInf c neg, false, false, false, 0⟩
    else if c == 3 && !sat then ⟨0x7F, false, false, false, 0⟩
    else ⟨encodeMax c neg, true, false, false, 0⟩
  | .nan =>
    match f.nanEnc with
    | some b => ⟨b, false, false, false, if (c == 7 || c == 8) && snan then fInvalid else 0⟩
    | none => ⟨0, false, false, true, 0⟩

/-! ### Panels (R33 to R35) -/

/-- The smallest t with a ≤ M × 2^t for a = m × 2^e / den > 0 (R35 step 3). -/
def panelT (c den m : Nat) (e : Int) : Int :=
  let f := fmtP c
  let mm := f.maxM * den
  let t0 : Int := (Nat.log2 m : Int) + e - ((Nat.log2 mm : Int) + f.maxE)
  if leScaled m e mm (f.maxE + t0) then t0 else t0 + 1

/-- The larger of two magnitudes given as pairs (m, e). -/
def maxMagnitude (a b : Nat × Int) : Nat × Int := if leScaled a.1 a.2 b.1 b.2 then b else a

/-- The scale byte that R35 chooses for the source values of a panel, each divided by `den` (R125), and
whether it is a NaN panel. -/
def panelScale (c den : Nat) (vs : List Val) : Nat × Bool :=
  if (fmtP c).nanEnc.isNone && vs.any Val.isNan then (0xFF, true)
  else
    let a := vs.foldl (fun a v => match v with
      | .fin _ m e => maxMagnitude a (m, e)
      | _ => a) ((0, 0) : Nat × Int)
    if a.1 = 0 then (127, false)
    else ((max 0 (min 254 (127 + panelT c den a.1 a.2))).toNat, false)

/-- The value divided by the panel scale (R35 step 4). -/
def unscale (s : Nat) : Val → Val
  | .fin n m e => .fin n m (e - ((s : Int) - 127))
  | v => v

/-- Conversion of one element of a panel under a scale byte already chosen (R35 step 4, R43). Under
0xFF the element is 0x0, and a non-zero finite source counts as vanished only where its exact value
is non-zero and the result zero: the NaN panel overrides it (R35). A NaN under a kept scale, where no NaN panel is formed,
is 0x0 with no event in V4e2 (DESIGN CHOICE, log entry 40). -/
def convertPanel (c s : Nat) (mode : RoundMode) (sat : Bool) (r16 : Nat) (snan : Bool) (v : Val) : ConvRes :=
  if s = 0xFF then ⟨0, false, false, false, 0⟩
  else match v with
    | .nan => (match (fmtP c).nanEnc with
      | some b => ⟨b, false, false, false, 0⟩
      | none => ⟨0, false, false, false, 0⟩)
    | v => convert c mode sat r16 snan (unscale s v)

/-- Conversion of v / den, rounded once, under scale byte `s` (R125): special values ignore the divisor.
A panel's NaN or NaN scale acts as in `convertPanel`; an element without panel has `s` = 127. -/
def convertQuot (c s : Nat) (mode : RoundMode) (sat : Bool) (r16 den : Nat) (v : Val) : ConvRes :=
  if s = 0xFF then ⟨0, false, false, false, 0⟩
  else match unscale s v with
    | .fin neg m e => if m = 0 then convert c mode sat r16 false (.fin neg 0 0)
        else convertRat c mode sat neg m den e r16
    | w => convert c mode sat r16 false w

end Sys2Proof.Machine
end

