-- ==== Sys2Proof/Machine/Zhevud.lean ====
section
/-!
DEFINITION. The Zhevud generator (06 R134 to R136).
-/

namespace Sys2Proof.Machine

/-- Rotation amounts ra and rb of round r (R136). -/
def zhevudRot : Nat → Nat × Nat
  | 0 => (13, 7) | 1 => (17, 23) | 2 => (26, 11) | 3 => (6, 19)
  | 4 => (15, 3) | 5 => (21, 27) | 6 => (10, 14) | _ => (29, 9)

abbrev Quad := BitVec 32 × BitVec 32 × BitVec 32 × BitVec 32

/-- Word j of four. -/
def quadAt (q : Quad) (j : Nat) : BitVec 32 :=
  match j % 4 with
  | 0 => q.1 | 1 => q.2.1 | 2 => q.2.2.1 | _ => q.2.2.2

/-- inject of R136. -/
def zhevudInject (x k : Quad) (s : Nat) : Quad :=
  (x.1 + quadAt k s, x.2.1 + quadAt k (1 + s), x.2.2.1 + quadAt k (2 + s),
   x.2.2.2 + quadAt k (3 + s) + BitVec.ofNat 32 s)

/-- Round r of R136 with its injection. -/
def zhevudRound (k x : Quad) (r : Nat) : Quad :=
  let rot := zhevudRot r
  let x0 := x.1 + x.2.1
  let x3 := (x.2.2.2 ^^^ x0).rotateLeft rot.1
  let x2 := x.2.2.1 + x3
  let x1 := (x.2.1 ^^^ x2).rotateLeft rot.2
  let y : Quad := (x0, x1, x2, x3)
  if r % 2 = 1 then zhevudInject y k ((r + 1) / 2) else y

/-- The 128-bit output for a seed, a stream and a counter (R135, R136). -/
def zhevud (seed : BitVec 64) (stream : BitVec 32) (ctr : BitVec 128) : BitVec 128 :=
  let k0 := seed.extractLsb' 0 32
  let k1 := seed.extractLsb' 32 32
  let k : Quad := (k0, k1, stream, k0 ^^^ k1 ^^^ stream ^^^ 0x6A3B91E5#32)
  let x : Quad := (ctr.extractLsb' 0 32, ctr.extractLsb' 32 32, ctr.extractLsb' 64 32, ctr.extractLsb' 96 32)
  let y := (List.range 8).foldl (zhevudRound k) (zhevudInject x k 0)
  y.2.2.2 ++ y.2.2.1 ++ y.2.1 ++ y.1

/-- The 16-bit random value of the element at `pos` of tensor `ztid` (R134, R131). -/
def zhevudValue (seed : BitVec 64) (stream : BitVec 32) (step : BitVec 64) (ztid pos : Nat) : Nat :=
  let ctr : BitVec 128 := step ++ BitVec.ofNat 24 ztid ++ BitVec.ofNat 40 (pos / 8)
  ((zhevud seed stream ctr).extractLsb' (16 * (pos % 8)) 16).toNat

end Sys2Proof.Machine
end

