-- ==== Sys2Proof/Machine/Operands.lean ====
section
/-!
DEFINITION. The operand forms of queue commands: loop steps (08 R179), bench operands (R187, R188),
tensor descriptors (09 R206 to R217), reading elements, and the converting writer with its gauge counts
(02 R39 to R44, 05 R112, R566, 06 R130 to R133, R144 to R147).
-/

namespace Sys2Proof.Machine

/-- An issued command at work: who issues it, what it latched, and the state so far. -/
structure Job where
  core : Nat
  q : Nat
  ctx : Nat
  cmd : QCmd
  loops : List Nat
  pc : Nat
  count : BitVec 32
  zstep : BitVec 64
  seed : BitVec 64
  d : Dev
  reads : List (Nat × Nat) := []
  writes : List (Nat × Nat) := []
  dsts : List Region := []
  gauge : List GaugeDelta := []
  fset : List Nat := []
  fclr : List Nat := []
  /-- What the command reads beside bench bytes: joist rows, vector registers, device memory (R199). -/
  rds : List Region := []
  /-- Its device-memory accesses are deck atomics, ordered among their like at the home deck (R198). -/
  atom : Bool := false
  /-- The tiles that run it (R174). -/
  tiles : List Nat := []
  /-- It does its work behind its issue, in the unit that serves it, and touches device memory there (R181). -/
  later : Bool := false
  /-- ZHV.STEP before a ZSTEP: what an unordered command may still latch (R138). -/
  zold : Option (BitVec 64) := none
  imm : Bool := false
  qend : Bool := false
  held : Bool := false
  /-- Belongs to a glue-up (R277). -/
  glueMark : Bool := false
  /-- COUNT, BODY and lines of the body, of a LOOP. -/
  loop : Option (Nat × Nat × Nat) := none
  /-- The order that the command's queue knows, for the sentinel (R203). -/
  vc : List Nat := [0, 0, 0, 0]
  deriving Repr

/-- The cluster of the issuing core, whose translation cache it uses (R330). -/
def Job.unit (j : Job) : Nat := j.core / 8

/-- The value of a field that may carry loop steps (R179). -/
def steppedVal (loops : List Nat) (f : Stepped) : Int :=
  f.base + (loops.getD 0 0 : Int) * f.st0.toInt + (loops.getD 1 0 : Int) * f.st1.toInt
    + (loops.getD 2 0 : Int) * f.st2.toInt + (loops.getD 3 0 : Int) * f.st3.toInt

/-- What a command reads (R199). -/
def Job.allReads (j : Job) : List Region := j.reads.map (fun r => Region.bench r.1 r.2) ++ j.rds

/-- ERR.DETAIL of a command's record (R483); `hi` are the bits from 176 on. -/
def cmdDetail (loops : List Nat) (pc : Nat) (count : BitVec 32) (hi : Nat) : Nat :=
  packFields [(loops.getD 0 0, 24), (loops.getD 1 0, 24), (loops.getD 2 0, 24), (loops.getD 3 0, 24),
    (pc, 48), (count.toNat, 32), (hi, 16)]

/-- ERR.UNIT of a record that a command causes: the queue (R483), and the tile for MAT_RANGE and MAT_SISTER (R480
type 3; the worked record under R506). -/
def Job.recUnit (j : Job) (cls addr : Nat) : Nat :=
  if cls = matRange ∨ cls = matSister then unitTile j.core (addr % 4) else unitQueue j.core j.q

/-- A record that a command causes (R483). -/
def Job.record (j : Job) (cls kind addr hi : Nat) : ErrRec :=
  { cls := cls, kind := kind, ctx := some j.ctx, unit := j.recUnit cls addr, tag := j.cmd.tag,
    addr := addr, detail := cmdDetail j.loops j.pc j.count hi }

/-- Adds the destinations that a failing command may have left half written. -/
def withDsts {α : Type} (rs : List Region) (x : Except Stop α) : Except Stop α :=
  match x with
  | .error (.err e) => .error (.err { e with dsts := rs ++ e.dsts })
  | x => x

/-! ### Index enumeration -/

/-- All index vectors of the sizes, dimension 0 fastest (R187, R210). -/
def indexVecs : List Nat → List (List Nat)
  | [] => [[]]
  | s :: ss => (indexVecs ss).flatMap (fun r => (List.range s).map (fun i => i :: r))

/-- Σ i_d × stride_d. -/
def dotIdx : List Nat → List Int → Int
  | i :: is, s :: ss => (i : Int) * s + dotIdx is ss
  | _, _ => 0

/-- The product of sizes. -/
def prodList (l : List Nat) : Nat := l.foldl (· * ·) 1

/-- Dense row-major strides (R132). -/
def denseStrides : List Nat → Nat → List Int
  | [], _ => []
  | s :: ss, acc => (acc : Int) :: denseStrides ss (acc * s)

/-- Inserts a dimension by rising stride. -/
def insertDim (x : Nat × Nat) : List (Nat × Nat) → List (Nat × Nat)
  | [] => [x]
  | y :: ys => if x.1 ≤ y.1 then x :: y :: ys else y :: insertDim x ys

/-- `provably_one_to_one` of R216. -/
def oneToOne (sizes : List Nat) (strides : List Int) : Bool :=
  let dims := (sizes.zip strides).filterMap (fun p => if 2 ≤ p.1 then some (p.2.natAbs, p.1) else none)
  let sorted := dims.foldl (fun l x => insertDim x l) []
  (sorted.foldl (fun (a : Bool × Nat) p =>
    if a.1 && decide (a.2 < p.1) then (true, a.2 + p.1 * (p.2 - 1)) else (false, a.2)) (true, 0)).1

/-! ### Tensors as lists of elements -/

/-- An operand's elements in index order: bit addresses in the bench or in device-virtual memory, the
byte address of each element's panel scale, and the Zhevud positions of a destination. -/
structure Tens where
  bench : Bool
  fmt : Nat
  width : Nat
  panel : Bool
  addrs : List Int
  scales : List Int
  ztid : Nat
  pos : List Nat
  elem : Nat := 0
  deriving DecidableEq, Repr

/-- Number of elements. -/
def Tens.count (t : Tens) : Nat := t.addrs.length

/-- Strides of a bench operand in bits, 4-bit rows being packed (R187, R29). -/
def benchBitStrides (w : Nat) (dims : List (Nat × Int)) : List Int :=
  match dims with
  | [] => []
  | (_, s) :: ds => (if w = 4 then 4 else s * 8) :: ds.map (fun p => p.2 * 8)

/-- The bit addresses of a bench operand's elements. -/
def benchBits (loops : List Nat) (w : Nat) (o : BenchOp) : List Int :=
  let b := steppedVal loops o.base
  let st := benchBitStrides w o.dims
  (indexVecs (o.dims.map (·.1))).map (fun iv => b * 8 + dotIdx iv st)

/-- Field ranges of a bench operand (R187, R177). -/
def benchDecodeOk (o : BenchOp) : Bool :=
  decide (o.dims.length ≤ 3) &&
    o.dims.all (fun p => decide (p.1 ≤ 65536) && decide (-1048576 ≤ p.2) && decide (p.2 ≤ 1048575))

/-- The issue checks of a bench operand (R187, R188); `dst` adds the one-to-one test. -/
def checkBench (loops : List Nat) (w : Nat) (dst : Bool) (o : BenchOp) : Except Stop Unit :=
  let b := steppedVal loops o.base
  let e : Int := if w = 4 then 1 else (w / 8 : Nat)
  let strides := if w = 4 then o.dims.tail else o.dims
  if !benchDecodeOk o then failCls cmdDecode
  else if b < 0 ∨ (benchSize : Int) ≤ b then failCls cmdBenchRange
  else if b % e ≠ 0 ∨ strides.any (fun p => p.2 % e != 0) then failCls cmdBenchRange
  else if (benchBits loops w o).any (fun a => decide (a < 0) || decide ((benchSize : Int) * 8 < a + w)) then
    failCls cmdBenchRange
  else if dst && !oneToOne (o.dims.map (·.1)) ((benchBitStrides w o.dims).map (fun s => s / w)) then
    failCls cmdAlias
  else .ok ()

/-- The panel index of each element of rows of `n0` elements: 32 in a panel, panels counted in index
order (R33). -/
def panelIndex (n0 rows : Nat) : List Nat :=
  (List.range rows).flatMap (fun r => (List.range n0).map (fun i => r * ((n0 + 31) / 32) + i / 32))

/-- A bench operand as a tensor. A panelled operand names its scale bytes as a bench operand of one
byte per panel, in panel order. -/
def benchTens (loops : List Nat) (fmt : Nat) (panel dst : Bool) (o : BenchOp) (scale : Option BenchOp)
    (ztid : Nat) (zorg : Nat) : Except Stop Tens :=
  let w := fmtWidth fmt
  if !fmtKnown fmt || (panel && (!fmtPanelOk fmt || scale.isNone)) then failCls cmdDecode
  else match checkBench loops w dst o with
    | .error e => .error e
    | .ok _ =>
      let addrs := benchBits loops w o
      let pos := (List.range addrs.length).map (fun n => zorg + n)
      if !panel then
        .ok { bench := true, fmt := fmt, width := w, panel := false, addrs := addrs, scales := [],
              ztid := ztid, pos := pos }
      else
        let so := scale.getD ⟨⟨0, 0, 0, 0, 0⟩, []⟩
        match checkBench loops 8 dst so with
        | .error e => .error e
        | .ok _ =>
          let sb := benchBits loops 8 so
          let n0 := ((o.dims.map (·.1)).headD 1)
          let rows := prodList ((o.dims.map (·.1)).tail)
          if sb.length ≠ rows * ((n0 + 31) / 32) then failCls cmdOperand
          else
            let pi := panelIndex n0 rows
            .ok { bench := true, fmt := fmt, width := w, panel := true, addrs := addrs,
                  scales := pi.map (fun k => sb.getD k 0 / 8), ztid := ztid, pos := pos }

/-! ### Tensor descriptors (R209) -/

structure Desc192 where
  base : Nat
  fmt : Nat
  panel : Bool
  write : Bool
  space : Bool
  zdense : Bool
  rank : Nat
  idxEn : Bool
  idxDim : Nat
  allocBase : Nat
  allocLimit : Nat
  scaleBase : Nat
  zorg : Nat
  ztid : Nat
  gen : Nat
  valid : Bool
  elem : Nat
  size : List Nat
  stride : List Int
  sstride : List Int
  zstride : List Nat
  deriving DecidableEq, Repr

/-- The fields of a 192-byte image (R209); dimensions at RANK and above count as absent (R210). -/
def parseDesc (bs : List Byte) : Desc192 :=
  let w0 := leAt bs 0 8
  let w5 := leAt bs 0x28 8
  let r := bitsOf w0 58 56
  { base := bitsOf w0 47 0
    fmt := bitsOf w0 51 48
    panel := bitOf w0 52
    write := bitOf w0 53
    space := bitOf w0 54
    zdense := bitOf w0 55
    rank := r
    idxEn := bitOf w0 59
    idxDim := bitsOf w0 62 60
    allocBase := bitsOf (leAt bs 8 8) 47 0
    allocLimit := bitsOf (leAt bs 0x10 8) 47 0
    scaleBase := bitsOf (leAt bs 0x18 8) 47 0
    zorg := bitsOf (leAt bs 0x20 8) 43 0
    ztid := bitsOf w5 23 0
    gen := bitsOf w5 31 24
    valid := bitOf w5 32
    elem := bitsOf w5 34 33
    size := ((List.range 6).map (fun k => bitsOf (leAt bs (0x30 + 4 * k) 4) 24 0)).take r
    stride := ((List.range 6).map (fun k => ofTwos 32 (leAt bs (0x48 + 4 * k) 4))).take r
    sstride := (1 :: (List.range 5).map (fun k => ofTwos 32 (leAt bs (0x60 + 4 * k) 4))).take r
    zstride := ((List.range 6).map (fun k => bitsOf (leAt bs (0x80 + 8 * k) 8) 43 0)).take r }

/-- Whether a reserved bit of an image is set (R209). -/
def descReserved (bs : List Byte) : Bool :=
  bitOf (leAt bs 0 8) 63 || bitsOf (leAt bs 8 8) 63 48 != 0 || bitsOf (leAt bs 0x10 8) 63 48 != 0
    || bitsOf (leAt bs 0x18 8) 63 48 != 0 || bitsOf (leAt bs 0x20 8) 63 44 != 0
    || bitsOf (leAt bs 0x28 8) 63 35 != 0
    || (List.range 6).any (fun k => bitsOf (leAt bs (0x30 + 4 * k) 4) 31 25 != 0)
    || leAt bs 0x74 12 != 0
    || (List.range 6).any (fun k => bitsOf (leAt bs (0x80 + 8 * k) 8) 63 44 != 0)
    || leAt bs 0xB0 16 != 0

/-- Bits of an element (R211). -/
def descWidth (x : Desc192) : Nat :=
  if x.elem = 1 then 256 else if x.elem = 2 then 64 else fmtWidth x.fmt

/-- The lowest and highest offsets of sizes and strides (R215). -/
def offsetSpan (sizes : List Nat) (strides : List Int) : Int × Int :=
  (sizes.zip strides).foldl (fun a p =>
    let t := ((p.1 : Int) - 1) * p.2
    if t < 0 then (a.1 + t, a.2) else (a.1, a.2 + t)) ((0 : Int), (0 : Int))

/-- The layout rules of R212. -/
def descLayoutOk (x : Desc192) : Bool :=
  let w := descWidth x
  (if w = 4 then
    (x.stride.headD 0 == 1 || (x.stride.headD 0 == 0 && !x.write))
      && x.stride.tail.all (fun s => s % 2 == 0)
   else x.base % (w / 8) == 0)
  && (!x.panel || (x.stride.headD 0 == 1 && !x.idxEn))

/-- Sizes of the scale map (R215). -/
def scaleSizes (x : Desc192) : List Nat :=
  match x.size with
  | [] => []
  | s :: ss => (s + 31) / 32 :: ss

/-- Logical strides (R132). -/
def logicalStrides (x : Desc192) : List Int :=
  if x.zdense then denseStrides x.size 1 else x.zstride.map Int.ofNat

/-- `validate` of R215: the error code, 0 for a valid image. -/
def validateDesc (bs : List Byte) : Nat :=
  let x := parseDesc bs
  let w := descWidth x
  if descReserved bs then descLayout
  else if !fmtKnown x.fmt then descFormat
  else if x.panel && !fmtPanelOk x.fmt then descFormat
  else if x.elem = 3 then descFormat
  else if x.elem ≠ 0 ∧ (x.fmt ≠ 0 ∨ x.panel) then descFormat
  else if x.rank < 1 ∨ 6 < x.rank then descRank
  else if x.idxEn ∧ x.rank ≤ x.idxDim then descRank
  else if x.size.any (fun s => decide (2 ^ 24 < s)) then descSize
  else if 2 ^ 43 < prodList x.size then descCount
  else if !descLayoutOk x then descLayout
  else if x.allocLimit < x.allocBase ∨ (x.space ∧ benchSize < x.allocLimit) then descRange
  else if prodList x.size = 0 then 0
  else
    let o := offsetSpan x.size x.stride
    let first := ((x.base : Int) * 8 + o.1 * w) / 8
    let last := ((x.base : Int) * 8 + o.2 * w + w + 7) / 8
    let so := offsetSpan (scaleSizes x) x.sstride
    if first < x.allocBase ∨ (x.allocLimit : Int) < last then descRange
    else if x.panel ∧ ((x.scaleBase : Int) + so.1 < x.allocBase
        ∨ (x.allocLimit : Int) < (x.scaleBase : Int) + so.2 + 1) then descRange
    else if !x.write then 0
    else if !oneToOne x.size x.stride then descAlias
    else if x.panel && !oneToOne (scaleSizes x) x.sstride then descAlias
    else if !oneToOne x.size (logicalStrides x) then descZmap
    else if (2 : Int) ^ 43 ≤ x.zorg + (offsetSpan x.size (logicalStrides x)).2 then descZmap
    else 0

/-- HBM address of a table entry (R206). -/
def descEntry (d : Dev) (ctx handle : Nat) : Nat := (ctxAt d ctx).descBase + 192 * handle

/-- A command's read of a descriptor at issue (R206, R208): CMD_DESC for a handle beyond the table or a
clear DESC.VALID; a poisoned entry is consumed. An entry whose line a glue-up holds makes the command wait (R279). -/
def readDesc (d : Dev) (ctx : Nat) (handle : Int) : Except Stop Desc192 :=
  if handle < 0 ∨ ((ctxAt d ctx).descCount : Int) ≤ handle then failCls cmdDesc
  else
    let pa := descEntry d ctx handle.toNat
    if accessHeld d false pa 192 then .error .wait
    else
    match firstPoison d false pa 192 with
    | some a => failAddr poisonCls a
    | none =>
      let x := parseDesc (readMem d false pa 192)
      if x.valid then .ok x else failCls cmdDesc

/-- The read of a descriptor at its home decks (R16). -/
def Job.tableRead (j : Job) (handle : Int) : Job :=
  if handle < 0 ∨ ((ctxAt j.d j.ctx).descCount : Int) ≤ handle then j
  else { j with d := deckRead false (descEntry j.d j.ctx handle.toNat) 192 j.d }

/-- R207: mints an image into a table entry. The error code is 0 on success. -/
def mintDesc (ctx handle : Nat) (img : List Byte) (d : Dev) : Nat × Dev :=
  if (ctxAt d ctx).descCount ≤ handle then (descHandle, d)
  else
    let pa := descEntry d ctx handle
    let code := validateDesc img
    if code ≠ 0 then
      let b := readMemLe d false (pa + 0x2C) 1
      (code, writeMem false (pa + 0x2C) (leBytes 1 (b / 2 * 2)) d)
    else
      let gen := if (firstPoison d false pa 192).isSome then 0 else readMemLe d false (pa + 0x2B) 1
      let img := putLe (padTo 192 img) 0x2B 1 ((gen + 1) % 256)
      let img := putLe img 0x2C 1 (leAt img 0x2C 1 / 2 * 2 + 1)
      (0, writeMem false pa img d)

/-- A mint at the home decks: it waits on an entry that a glue-up holds and takes the marks of open ones (R279). -/
def mintAt (ctx handle : Nat) (img : List Byte) (d : Dev) : Except Stop (Nat × Dev) :=
  if (ctxAt d ctx).descCount ≤ handle then .ok (descHandle, d)
  else
    match deckVisitW false (descEntry d ctx handle) 192 d with
    | .error e => .error e
    | .ok d => .ok (mintDesc ctx handle img d)

/-- The elements of a descriptor for given sizes; `map0` turns an index of a dimension into the index
that it refers to (the indexed dimension of R218). `mitre` makes dimension 1 run fastest (R217). -/
def descElems (x : Desc192) (sizes : List Nat) (mitre : Bool) (mapIdx : List Nat → List Nat) : Tens :=
  let w := descWidth x
  let swap := fun l : List Nat => match l with
    | a :: b :: r => b :: a :: r
    | l => l
  let ivs := if mitre then (indexVecs (swap sizes)).map swap else indexVecs sizes
  let ivs := ivs.map mapIdx
  { bench := x.space
    fmt := x.fmt
    width := w
    panel := x.panel
    addrs := ivs.map (fun iv => (x.base : Int) * 8 + dotIdx iv x.stride * w)
    scales := if x.panel then ivs.map (fun iv =>
        (x.scaleBase : Int) + ((iv.headD 0) / 32 : Nat) + dotIdx iv.tail x.sstride.tail)
      else []
    ztid := x.ztid
    pos := ivs.map (fun iv => ((x.zorg : Int) + dotIdx iv (logicalStrides x)).toNat)
    elem := x.elem }

/-- The elements of a descriptor in its index order. -/
def descTens (x : Desc192) (mitre : Bool) : Tens := descElems x x.size mitre (fun iv => iv)

/-! ### Reading elements -/

/-- The bits of an element in the bench. -/
def benchElem (d : Dev) (core w : Nat) (a : Int) : Nat :=
  let b := a.toNat
  if w = 4 then (benchLe d core (b / 8) 1 / 2 ^ (b % 8)) % 16 else benchLe d core (b / 8) (w / 8)

/-- Bytes that an element touches: address and length. -/
def elemBytes (w : Nat) (a : Int) : Nat × Nat := (a.toNat / 8, if w = 4 then 1 else w / 8)

/-- Reads one element: its bits and whether it is poisoned. -/
def readElem (t : Tens) (a : Int) (j : Job) : Except Stop (Nat × Bool × Job) :=
  let eb := elemBytes t.width a
  if t.bench then
    .ok (benchElem j.d j.core t.width a, benchPoisoned j.d j.core eb.1 eb.2, { j with reads := eb :: j.reads })
  else
    match vReadAt j.unit j.ctx (a / 8) eb.2 j.d with
    | .error e => .error e
    | .ok (bs, po, rs, d) =>
      let v := ofLe bs
      .ok (if t.width = 4 then v / 2 ^ (a.toNat % 8) % 16 else v, po, { j with d := d, rds := rs ++ j.rds })

/-- Reads one scale byte. -/
def readScale (t : Tens) (s : Int) (j : Job) : Except Stop (Nat × Bool × Job) :=
  readElem { t with width := 8, panel := false } (s * 8) j

/-- One element read: bits, scale byte (127 without panels), whether poisoned. -/
structure Elem where
  bits : Nat
  scale : Nat
  poison : Bool
  deriving DecidableEq, Repr

/-- Reads elements with their scales. -/
def readElems (t : Tens) : List Int → List Int → Job → Except Stop (List Elem × Job)
  | [], _, j => .ok ([], j)
  | a :: as, ss, j =>
    match readElem t a j with
    | .error e => .error e
    | .ok (v, po, j) =>
      if t.panel then
        match readScale t (ss.headD 0) j with
        | .error e => .error e
        | .ok (s, ps, j) =>
          match readElems t as ss.tail j with
          | .error e => .error e
          | .ok (l, j) => .ok (⟨v, s, po || ps⟩ :: l, j)
      else
        match readElems t as [] j with
        | .error e => .error e
        | .ok (l, j) => .ok (⟨v, 127, po⟩ :: l, j)

/-- Reads a whole tensor. -/
def readTens (t : Tens) (j : Job) : Except Stop (List Elem × Job) := readElems t t.addrs t.scales j

/-- The exact value of an element read. -/
def elemVal (t : Tens) (e : Elem) : Val :=
  if t.panel then scaleVal e.scale (decodeElem t.fmt e.bits) else decodeElem t.fmt e.bits

/-- The address that a consumption of poison reports for an element. -/
def elemAddr (a : Int) : Nat := (a / 8).toNat

/-- Values of a tensor that a converting command consumes: the first poisoned element stops it with its
address (R245). -/
def takeVals (t : Tens) (j : Job) : Except Stop (List (Val × Bool) × Job) :=
  match readTens t j with
  | .error e => .error e
  | .ok (l, j) =>
    match (l.zip t.addrs).find? (fun p => p.1.poison) with
    | some p => .error (.err { cls := poisonCls, addr := elemAddr p.2, dev := some j.d })
    | none => .ok (l.map (fun e => (elemVal t e, isSignalling t.fmt e.bits)), j)

/-! ### Writing elements -/

/-- A write of `w` bits at a bit address. -/
structure BitWrite where
  at_ : Int
  w : Nat
  v : Nat
  deriving DecidableEq, Repr

/-- Bytes of a bit write over the byte that stands there. -/
def bitWriteBytes (old : Nat) (x : BitWrite) : List Byte :=
  if x.w = 4 then
    (if x.at_.toNat % 8 = 0 then leBytes 1 (old / 16 * 16 + x.v % 16) else leBytes 1 (old % 16 + x.v % 16 * 16))
  else leBytes (x.w / 8) x.v

/-- Bits of the `g`-byte granule `k` that writes of (bit address, bits) cover. -/
def coveredBits (g k : Nat) (ws : List (Nat × Nat)) : Nat :=
  ws.foldl (fun n p => n + (min (p.1 + p.2) (8 * g * (k + 1)) - max p.1 (8 * g * k))) 0

/-- Applies bench writes; words that they cover whole lose their poison (R243). -/
def benchPut (core : Nat) (ws : List BitWrite) (d : Dev) : Dev :=
  let m := ws.foldl (fun m x =>
    let a := benchKey core (x.at_.toNat / 8)
    memWrite m a (bitWriteBytes (memByte m a).toNat x)) d.bench
  let po :=
    if d.benchPoison = [] then []
    else
      let cov := ws.map (fun x => (8 * benchKey core 0 + x.at_.toNat, x.w))
      d.benchPoison.filter (fun p => coveredBits 8 p.1 cov != 64)
  { d with bench := m, benchPoison := po }

/-- Translates the destinations of device writes, in order; a failure leaves the ones before it half
written (R201). -/
def physWrites (unit ctx : Nat) : List BitWrite → List (Bool × Nat × BitWrite) → Dev →
    Except Stop (List (Bool × Nat × BitWrite) × Dev)
  | [], acc, d => .ok (acc.reverse, d)
  | x :: xs, acc, d =>
    let done := acc.map (fun (p : Bool × Nat × BitWrite) => Region.mem p.1 p.2.1 ((p.2.2.w + 7) / 8))
    match withDsts done (xlate unit ctx true (x.at_ / 8) d) with
    | .error e => .error e
    | .ok (host, pa, _, d) =>
      match deckVisitW host pa ((x.w + 7) / 8) d with
      | .error e => .error e
      | .ok d => physWrites unit ctx xs ((host, pa, x) :: acc) d

/-- Whether any line is poisoned, in a deck or beneath. -/
def anyPoison (d : Dev) : Bool :=
  !(d.hbmPoison == [] && d.hostPoison == []) || d.deck.lines.any (·.poison)

/-- Applies device writes already translated; lines that they cover whole lose their poison (R243), unless the write is
lost (R248, R257). -/
def physPut (ws : List (Bool × Nat × BitWrite)) (d : Dev) : Dev :=
  let poisonedBefore := anyPoison d
  let d := ws.foldl (fun d (p : Bool × Nat × BitWrite) =>
    writeMem p.1 p.2.1 (bitWriteBytes (readMemLe d p.1 p.2.1 1) p.2.2) d) d
  if !poisonedBefore then d
  else
    let cov := fun h : Bool => (ws.filter (fun (p : Bool × Nat × BitWrite) => p.1 == h)).map
      (fun (p : Bool × Nat × BitWrite) => (8 * p.2.1 + p.2.2.at_.toNat % 8, p.2.2.w))
    let starts := (ws.filter (fun (p : Bool × Nat × BitWrite) => p.2.1 % 64 = 0)).map
      (fun (p : Bool × Nat × BitWrite) => (p.1, p.2.1))
    starts.foldl (fun d (p : Bool × Nat) =>
      if coveredBits 64 (p.2 / 64) (cov p.1) = 512 && !writeLost d p.1 p.2 then cleanLine p.1 p.2 d else d) d

/-- Writes elements of a tensor that a command may name as a destination. -/
def putWrites (bench : Bool) (ws : List BitWrite) (j : Job) : Except Stop Job :=
  if bench then
    .ok { j with
      d := benchPut j.core ws j.d
      writes := ws.map (fun x => elemBytes x.w x.at_) ++ j.writes
      dsts := ws.map (fun x => Region.bench (elemBytes x.w x.at_).1 (elemBytes x.w x.at_).2) ++ j.dsts }
  else
    match physWrites j.unit j.ctx ws [] j.d with
    | .error e => .error e
    | .ok (ps, d) =>
      .ok { j with
        d := physPut ps d
        dsts := ps.map (fun (p : Bool × Nat × BitWrite) => Region.mem p.1 p.2.1 ((p.2.2.w + 7) / 8)) ++ j.dsts }

/-! ### Gauge slots (R144 to R147) -/

/-- A slot's settings as read at issue. -/
structure GaugeCfg where
  slot : Nat
  ewidth : Nat
  ebase : Int
  deriving DecidableEq, Repr

/-- The slot that GSLOT selects (R144). -/
def gaugeSlotNo (gslot fmt : Nat) : Nat := if gslot = 0 then fmt else gslot

/-- The check of GSLOT at issue (R144, R147). -/
def gaugeCheck (gslot fmt : Nat) (panel : Bool) (j : Job) : Except Stop (GaugeCfg × Job) :=
  let s := gaugeSlotNo gslot fmt
  if (10 ≤ s ∧ s ≤ 15) ∨ (ctxAt j.d j.ctx).gaugeCount ≤ s then failCls gaugeSlotErr
  else
    match vTake j.unit j.ctx (gaugeAddr j.d j.ctx s + 0x120) 8 j.d with
    | .error e => .error e
    | .ok (bs, d) =>
      let w := ofLe bs
      if bitsOf w 35 32 ≠ fmt ∨ bitOf w 36 ≠ panel then failCls gaugeSlotErr
      else .ok (⟨s, bitsOf w 38 37, ofTwos 16 (bitsOf w 55 40)⟩, { j with d := d })

/-- The bin of a written value (R146). -/
def gaugeBin (g : GaugeCfg) (v : Val) : Nat :=
  match v with
  | .fin _ _ _ =>
    (match v.expo with
     | none => 0
     | some e => (1 + max 0 (min 61 ((e - g.ebase) / ((2 ^ g.ewidth : Nat) : Int)))).toNat)
  | _ => 63

/-! ### The converting writer -/

/-- What a destination element receives: kept (MERGE), written as zero (ZERO), a value, a NaN whose bits
are written unchanged (R36), or an exact value divided by a positive integer (R125). -/
inductive Lane where
  | keep
  | zero
  | val (v : Val) (snan : Bool)
  | bits (b : Nat)
  | quot (v : Val) (den : Nat)
  deriving DecidableEq, Repr

/-- The value that a lane offers to the choice of a panel scale. -/
def Lane.source : Lane → Val
  | .val v _ => v
  | .quot v _ => v
  | .bits _ => .nan
  | _ => .fin false 0 0

/-- The divisor that the lanes of one command share. -/
def laneDen : List Lane → Nat
  | .quot _ d :: _ => d
  | _ :: ls => laneDen ls
  | [] => 1

def Lane.kept : Lane → Bool
  | .keep => true
  | _ => false

/-- One converted element: its write, its gauge share, its flags and whether it is a NaN event. -/
structure Conved where
  write : Option Nat
  bin : Nat
  ovf : Bool
  van : Bool
  nanEvent : Bool
  flags : BitVec 5
  deriving DecidableEq, Repr

/-- Converts one element of a destination, under scale byte `s` if panelled. -/
def convOne (g : GaugeCfg) (t : Tens) (cv : Conv) (r16 : Nat) (s : Nat) (l : Lane) : Conved :=
  match l with
  | .keep => ⟨none, 0, false, false, false, 0⟩
  | .zero => ⟨some 0, 0, false, false, false, 0⟩
  | .val v sn =>
    let r := if t.panel then convertPanel t.fmt s cv.round cv.sat r16 sn v
      else convert t.fmt cv.round cv.sat r16 sn v
    let w := if t.panel then scaleVal s (decodeElem t.fmt r.bits) else decodeElem t.fmt r.bits
    ⟨some r.bits, gaugeBin g w, r.ovf, r.van, r.nanEvent, r.flags⟩
  | .bits b => ⟨some b, 63, false, false, false, 0⟩
  | .quot v den =>
    let r := convertQuot t.fmt (if t.panel then s else 127) cv.round cv.sat r16 den v
    let w := if t.panel then scaleVal s (decodeElem t.fmt r.bits) else decodeElem t.fmt r.bits
    ⟨some r.bits, gaugeBin g w, r.ovf, r.van, r.nanEvent && !t.panel, r.flags⟩

/-- The 16-bit random value of an element; 0 unless the mode is SR (R41, R131). -/
def elemRandom (j : Job) (cv : Conv) (ztid pos : Nat) : Nat :=
  if cv.round = .sr then zhevudValue j.seed cv.stream j.zstep ztid pos else 0

/-- The distinct scale addresses of a tensor, in order. -/
def scaleKeys (t : Tens) : List Int :=
  (t.scales.foldl (fun (l : List Int) s => if l.contains s then l else s :: l) []).reverse

/-- The scale byte of each panel: kept where a lane of the panel is kept (R566), else chosen by R35. -/
def choosePanels (t : Tens) (lanes : List Lane) : List Int → Job → Except Stop (List (Int × Nat × Bool) × Job)
  | [], j => .ok ([], j)
  | k :: ks, j =>
    let mine := ((lanes.zip t.scales).filter (fun p => p.2 == k)).map (·.1)
    if mine.any Lane.kept then
      match readScale t k j with
      | .error e => .error e
      | .ok (s, po, j) =>
        if po && mine.any (fun l => !l.kept) then failAddr poisonCls k.toNat
        else
          match choosePanels t lanes ks j with
          | .error e => .error e
          | .ok (l, j) => .ok ((k, s, false) :: l, j)
    else
      let s := (panelScale t.fmt (laneDen mine) (mine.map Lane.source)).1
      match choosePanels t lanes ks j with
      | .error e => .error e
      | .ok (l, j) => .ok ((k, s, true) :: l, j)

/-- The scale byte chosen for a panel. -/
def scaleFor (ps : List (Int × Nat × Bool)) (k : Int) : Nat :=
  match ps.find? (fun p => p.1 == k) with
  | some p => p.2.1
  | none => 127

/-- CVT_NAN records, one per event (R44). -/
def raiseNans (j : Job) (fmt : Nat) : Nat → Dev → Dev
  | 0, d => d
  | n + 1, d => raiseNans j fmt n (raiseRec (j.record cvtNan 1 0 fmt) d)

/-- The gauge share of `n` elements that a failing command writes as poison: GAUGE.POISON alone (R146). -/
def gaugePoison (g : GaugeCfg) (n : Nat) : GaugeDelta := { slot := g.slot, poison := n }

/-- The gauge share of a write. -/
def gaugeOf (slot : Nat) (cs : List Conved) : GaugeDelta :=
  let ws := cs.filter (fun c => c.write.isSome)
  { slot := slot
    bins := ws.map (·.bin)
    written := ws.length
    ovf := (ws.filter (·.ovf)).length
    van := (ws.filter (·.van)).length }

/-- Converts lanes into a destination, writes them with their panel scales, and gathers gauge counts,
IEEE flags and NaN events. -/
def convWrite (t : Tens) (cv : Conv) (g : GaugeCfg) (lanes : List Lane) (j : Job) : Except Stop Job :=
  match (if t.panel then choosePanels t lanes (scaleKeys t) j else .ok ([], j)) with
  | .error e => .error e
  | .ok (ps, j) =>
    let rs := t.pos.map (fun p => elemRandom j cv t.ztid p)
    let cs := (lanes.zip (rs.zip (if t.panel then t.scales else t.addrs))).map
      (fun p => convOne g t cv p.2.1 (if t.panel then scaleFor ps p.2.2 else 127) p.1)
    let ws := (cs.zip t.addrs).filterMap (fun p => p.1.write.map (fun v => (⟨p.2, t.width, v⟩ : BitWrite)))
    let sw := ps.filterMap (fun p => if p.2.2 then some (⟨p.1 * 8, 8, p.2.1⟩ : BitWrite) else none)
    match putWrites t.bench (ws ++ sw) j with
    | .error e => .error e
    | .ok j =>
      let fl := cs.foldl (fun (a : BitVec 5) c => a ||| c.flags) 0
      let d := modCtx j.ctx (fun x => { x with ieee := x.ieee ||| fl }) j.d
      let d := raiseNans j t.fmt (cs.filter (·.nanEvent)).length d
      .ok { j with d := d, gauge := gaugeOf g.slot cs :: j.gauge }

/-- ZORG + N of a bench-range command (R133). -/
def zhvRangeCheck (zorg : Int) (n : Nat) : Except Stop Unit :=
  if zorg < 0 ∨ (2 : Int) ^ 43 < zorg + n then failCls zhvRange else .ok ()

end Sys2Proof.Machine
end

