-- ==== Sys2Proof/Machine/Queues.lean ====
section
/-!
DEFINITION. Issue, completion, loops, flag waits, trace records and the hazard sentinel of the engine
queues (08 R174 to R186, R200 to R204; 13 R323; 20 R522, R523), and gauge flushes (06 R148).
-/

namespace Sys2Proof.Machine

/-! ### Trace (R522, R523) -/

/-- Adds a trace record; the buffer keeps the last 1,024. -/
def trace (core q event ctx : Nat) (tag : BitVec 32) (loops : List Nat) (zstep : BitVec 64) (d : Dev) : Dev :=
  let r : TraceRec :=
    { tag := tag, queue := q, event := event, ctx := ctx, kt := d.kt.now,
      count := (queueAt d core q).count, loops := loops, zstep := zstep }
  modCore core (fun c => { c with trace := (r :: c.trace).take 1024 }) d

/-! ### Failure of a command -/

/-- Sets RED.ERROR of a reduction record (R76). -/
def setRedError (unit ctx slot : Nat) (d : Dev) : Dev :=
  let va := (ctxAt d ctx).redBase + 64 * slot
  match vRead unit ctx va 1 d with
  | .error _ => d
  | .ok (bs, _, d) =>
    let b := ofLe bs
    match vWrite unit ctx va (leBytes 1 (if bitOf b 6 then b else b + 64)) d with
    | .ok d => d
    | .error _ => d

/-- A core leaves service until a field scan passes it; a faulted context no longer holds it (R487, R491). -/
def suspectCore (core : Nat) (d : Dev) : Dev :=
  modCore core (fun c => { c with out := true, suspectAt := nowNs d, resident := none }) d

/-- A command fails: its destinations hold undefined data, its reduction fails where R76 says so, what it leaves as poison
enters the gauge (R146), and its context faults (R201). -/
def failCmd (j : Job) (e : Err) (d : Dev) : Dev :=
  let d := (drawNat (e.dev.getD d)).2
  let d := e.dsts.foldl (fun d r => scrambleRegion j.core r d) d
  let d := e.pois.foldl (fun d r => poisonRegion j.core r d) d
  let d := match e.red with
    | some s => setRedError j.unit j.ctx s d
    | none => d
  let d := e.gauge.foldl (fun d g => match gaugeFlush j.unit j.ctx g d with | .ok d => d | .error _ => d) d
  let r := j.record e.cls 2 e.addr e.hi
  let d := faultCtx j.ctx { r with unit := e.unit.getD r.unit } d
  let d := match e.after with
    | some x => faultCtx j.ctx (j.record x.1 2 x.2 0) d
    | none => d
  if e.cls = matRange ∨ e.cls = matSister ∨ e.cls = spanWidth then suspectCore j.core d else d

/-! ### Completion (R180, R183, R186) -/

/-- A queue's launch loses one of its queues; with none left it completes (R176, R439). -/
def launchLeave (ctx core q : Nat) (seqNo : BitVec 32) (d : Dev) : Dev :=
  let x := ctxAt d ctx
  match x.launches.find? (fun l => l.begun && l.seqNo == seqNo && l.left.contains (4 * core + q)) with
  | none => d
  | some l =>
    let left := l.left.filter (fun k => k != 4 * core + q)
    let keep := x.launches.filter (fun m => !(m.begun && m.seqNo == seqNo && m.left.contains (4 * core + q)))
    if left = [] then
      pushComp l.ring (launchComp l 0) (modCtx ctx (fun x => { x with launches := keep, ran := true }) d)
    else
      let repl := x.launches.map (fun m =>
        if m.begun && m.seqNo == seqNo && m.left.contains (4 * core + q) then { m with left := left } else m)
      modCtx ctx (fun x => { x with launches := repl }) d

/-- The oldest flight of a queue completes: gauge counts, flags, DONE, the completion count and the
trace record. -/
def completeFlight (ctx core q : Nat) (f : Flight) (rest : List Flight) (d : Dev) : Dev :=
  let j : Job :=
    { core := core, q := q, ctx := ctx, cmd := ⟨core, .s, f.tag, none, false, none, false, none, false, 1, []⟩,
      loops := f.loops, pc := f.pc, count := (queueAt d core q).count, zstep := f.zstep, seed := 0, d := d }
  match gaugeFlushAll (core / 8) ctx f.gauge d with
  | .error (.err e) => failCmd j e d
  | .error _ => d
  | .ok d =>
    let vc := some (core, f.vc)
    let d := f.fset.foldl (fun d k => flagSetOwn ctx k vc d) d
    let d := f.fclr.foldl (fun d k => flagClearOwn ctx k d) d
    let d := match f.done with
      | some k => flagSetOwn ctx k vc d
      | none => d
    let d := modQueue core q (fun s => { s with
      inflight := rest
      count := s.count + 1
      running := s.running && !f.qend
      wait := s.wait.map (fun w => { w with since := nowNs d }) }) d
    let d := if f.trace then trace core q 1 ctx f.tag f.loops f.zstep d else d
    if f.qend then launchLeave ctx core q (queueAt d core q).launchSeq d else d

/-- Completes flights that need no more work while they are oldest (R180). -/
def drain (ctx core q : Nat) : Nat → Dev → Dev
  | 0, d => d
  | fuel + 1, d =>
    match (queueAt d core q).inflight with
    | f :: rest => if f.imm && !f.held then drain ctx core q fuel (completeFlight ctx core q f rest d) else d
    | [] => d

def drainQueue (ctx core q : Nat) (d : Dev) : Dev :=
  drain ctx core q (queueAt d core q).inflight.length d

/-! ### Loops (R178, R179) -/

/-- The loop stack and program counter after a body command has passed: `n` commands of the innermost
level, and the turns that end with them. -/
def loopPass : Nat → Nat → Nat → List LoopLvl → List LoopLvl × Nat
  | 0, _, pc, ls => (ls, pc)
  | _, _, pc, [] => ([], pc)
  | fuel + 1, n, pc, l :: ls =>
    if l.pos + n < l.body then ({ l with pos := l.pos + n } :: ls, pc)
    else if l.index + 1 < l.count then ({ l with pos := 0, index := l.index + 1 } :: ls, l.pc)
    else loopPass fuel l.body pc ls

/-- The loop indexes, level 0 innermost (R179). -/
def loopIndexes (ls : List LoopLvl) : List Nat := ls.map (·.index)

/-- The loop stack and program counter of a queue past an issued command. -/
def advanceTo (lines : Nat) (lp : Option (Nat × Nat × Nat)) (s : QueueSt) : List LoopLvl × Nat :=
  let pc := s.pc + 64 * lines
  match lp with
  | none => loopPass 5 1 pc s.loops
  | some (count, body, bodyLines) =>
    if count = 0 then loopPass 5 (1 + body) (pc + 64 * bodyLines) s.loops
    else
      let outer := match s.loops with
        | [] => []
        | l :: ls => { l with pos := l.pos + 1 } :: ls
      ({ count := count, body := body, pc := pc } :: outer, pc)

/-- What the command buffer holds past an issued command: the commands of the open loop bodies (R175), at most 255 of them
(R178). -/
def bufferAfter (s : QueueSt) (loops : List LoopLvl) : List Nat :=
  if loops = [] ∨ s.loops = [] then [] else if s.buf.contains s.pc then s.buf else s.pc :: s.buf

/-- Advances a queue past an issued command. -/
def advance (lines : Nat) (lp : Option (Nat × Nat × Nat)) (s : QueueSt) : QueueSt :=
  let r := advanceTo lines lp s
  { s with loops := r.1, pc := r.2, buf := bufferAfter s r.1 }

/-! ### Issue -/

/-- Commands in flight at most (R174). -/
def flightLimit : Nat → Nat
  | 0 => 16 | 1 => 8 | 2 => 4 | _ => 16

/-- The larger of two orders, place by place (R203). -/
def mergeVc (a b : List Nat) : List Nat := (List.range 4).map (fun i => max (a.getD i 0) (b.getD i 0))

/-- The order that a wait on set flags adds: what flags set by this core's own queues carry (R203). -/
def waitVc (d : Dev) (core : Nat) (keys : List Nat) (vc : List Nat) : List Nat :=
  keys.foldl (fun vc k =>
    let x := mapGet (0, []) d.flagVc k
    if x.1 = core && x.2 != [] then mergeVc vc x.2 else vc) vc

/-- Granules of 64 bytes of bench ranges (R203). -/
def granules (rs : List (Nat × Nat)) : List Nat :=
  rs.flatMap (fun r => if r.2 = 0 then [] else
    (List.range ((r.1 + r.2 - 1) / 64 - r.1 / 64 + 1)).map (fun i => r.1 / 64 + i))

/-- The first race that the reads of a command meet (R203): granule and its last writer. -/
def findRace (j : Job) : Option (Nat × Nat × BitVec 32 × Nat) :=
  (granules j.reads).findSome? (fun g =>
    let w := mapGet (0, 0, 0) j.d.shadow (j.core * 24576 + g)
    if w.1 != j.q && decide (j.vc.getD w.1 0 < w.2.2) then some (g, w) else none)

/-- Records bench writes in the sentinel's shadow. -/
def shadowWrites (j : Job) (place : Nat) (d : Dev) : Dev :=
  let put := fun m g => mapPut (0, 0, 0) (j.core * 24576 + g) (j.q, j.cmd.tag, place) m
  { d with shadow := (granules j.writes).foldl put d.shadow }

/-- The head command waits on flags (R184, R323). -/
def headWaits (core q : Nat) (tag : BitVec 32) (flags : List (Nat × Bool)) (d : Dev) : Dev :=
  modQueue core q (fun s => { s with wait := some {
    tag := tag, flags := flags, since := match s.wait with
      | some w => w.since
      | none => nowNs d } }) d

/-- The head command has reached its CLAMP (R196). The watchdog of a queue whose CLAMP waited for its flags runs on
(R323). -/
def headClamp (cmd : QCmd) (q id : Nat) (qmask : BitVec 4) (waits : List (Nat × Bool)) (d : Dev) : Dev :=
  modQueue cmd.core q (fun s => { s with wait := some {
    tag := cmd.tag, flags := waits, clamp := some (id, qmask), done := cmd.done, trace := cmd.trace,
    lines := cmd.lines, since := match s.wait with
      | some w => w.since
      | none => nowNs d } }) d

/-- The waits of a command: WAIT_A, WAIT_B and an FWAIT's flags. -/
def waitsOf (cmd : QCmd) (more : List (Nat × Bool)) : List (Nat × Bool) :=
  (match cmd.waitA with | some v => [(v, cmd.consA)] | none => []) ++
  (match cmd.waitB with | some v => [(v, cmd.consB)] | none => []) ++ more

/-- An open glue-up of the S queue of a core whose GLUE_COMMIT has not issued (R276). -/
def openGlue (d : Dev) (core : Nat) : Option Glue :=
  d.glues.find? (fun g => g.core == core && !g.commitIssued)

/-- Whether a queue of a core can issue now, and for which context: started, not stopped, its context
resident (R174, R328), and not held at a CLAMP (R196). -/
def issuer (d : Dev) (core q : Nat) : Option Nat :=
  match (coreAt d core).resident with
  | none => none
  | some c =>
    let s := queueAt d core q
    if s.running && !s.stopped && (ctxAt d c).state == .resident
      && (match s.wait with | some w => w.clamp.isNone | none => true) then some c else none

/-- The command at work that a queue issues. -/
def startJob (cmd : QCmd) (ctx : Nat) (d : Dev) : Job :=
  let q := queueNo cmd.queue
  let s := queueAt d cmd.core q
  { core := cmd.core, q := q, ctx := ctx, cmd := cmd, loops := loopIndexes s.loops, pc := s.pc,
    count := s.count, zstep := (coreAt d cmd.core).zstep, seed := (ctxAt d ctx).seed, d := d, vc := s.vc }

/-- A memory error of the core: a single-bit one is corrected and leaves BENCH_CE or JOIST_CE, a double-bit one poisons
the bench word or the row and leaves BENCH_UE or JOIST_UE (R231, R233; extra fields of R258). -/
def meetUpset (core : Nat) (d : Dev) (u : Upset) : Dev :=
  match u with
  | .bench a bit double =>
    if benchSize ≤ a then d
    else if double then
      benchPoison core a 1 (raiseFields benchUe (unitCore core) none [(core, 8), (a / 8 * 8, 21)] d)
    else raiseFields benchCe (unitCore core) none [(core, 8), (a / 64 % 32, 5), (bit, 7)] d
  | .joist row bit double =>
    if 1024 ≤ row then d
    else if double then
      setJrow core row { jrow d core row with poison := true }
        (raiseFields joistUe (unitCore core) none [(core, 8), (row, 10)] d)
    else raiseFields joistCe (unitCore core) none [(core, 8), (row, 10), (bit, 7)] d

/-- The memory errors that a command meets. -/
def meetUpsets (cmd : QCmd) (d : Dev) : Dev := cmd.upsets.foldl (meetUpset cmd.core) d

/-- The memory errors that a command meets, and the fetch of its lines (R175, R177). A command of a loop body that the
queue's buffer holds is not fetched again. -/
def fetchLines (j : Job) (d : Dev) : Except Stop Dev :=
  let d := meetUpsets j.cmd d
  if (queueAt d j.core j.q).buf.contains j.pc then .ok d
  else
    match vTake j.unit j.ctx j.pc (64 * j.cmd.lines) d with
    | .error e => .error e
    | .ok r => .ok r.2

/-- A fetch that fails faults the context with the program counter and the tag of the last command that the
queue issued (R177). -/
def fetchFail (j : Job) (e : Err) (d : Dev) : Dev :=
  failCmd { j with cmd := { j.cmd with tag := (queueAt d j.core j.q).lastTag } } e d

/-! ### Accesses that nothing orders (R198, R199, R204) -/

/-- The first and the number of the places that two runs have in common. -/
def runCommon (a n b m : Nat) : Option (Nat × Nat) :=
  let lo := max a b
  let hi := min (a + n) (b + m)
  if lo < hi then some (lo, hi - lo) else none

/-- What two regions of one core have in common. -/
def Region.common : Region → Region → Option Region
  | .mem h a n, .mem g b m => if h = g then (runCommon a n b m).map (fun r => .mem h r.1 r.2) else none
  | .bench a n, .bench b m => (runCommon a n b m).map (fun r => .bench r.1 r.2)
  | .rows a n, .rows b m => (runCommon a n b m).map (fun r => .rows r.1 r.2)
  | .vx r, .vx q => if r = q then some (.vx r) else none
  | _, _ => none

def Region.isMem : Region → Bool
  | .mem _ _ _ => true
  | _ => false

def Region.isBench : Region → Bool
  | .bench _ _ => true
  | _ => false

/-- What the regions of two commands have in common: of commands on different cores, in device memory alone; of two deck
atomics, not there (R198). -/
def meetParts (same atom : Bool) (xs ys : List Region) : List Region :=
  xs.flatMap (fun x => ys.filterMap (fun y =>
    if (if x.isMem then atom else !same) then none else x.common y))

/-- The commands in flight in the other queues of a context, with their cores. A command that an order of R198 puts before
another has completed when that one issues, so none of these is ordered before it. -/
def otherFlights (d : Dev) (ctx core q : Nat) : List (Nat × Flight) :=
  d.queues.flatMap (fun p =>
    if p.1 = 4 * core + q ∨ (coreAt d (p.1 / 4)).resident ≠ some ctx then []
    else p.2.inflight.map (fun f => (p.1, f)))

/-- Where gauge counts of a command will land. -/
def gaugeRegions (d : Dev) (unit ctx : Nat) (gs : List GaugeDelta) : List Region :=
  gs.filterMap (fun g =>
    match xlate unit ctx true (gaugeAddr d ctx g.slot) d with
    | .ok (host, pa, _, _) => some (Region.mem host pa 0x128)
    | .error _ => none)

/-- Free values where a command of another queue in flight and an issued one access the same place and one of them
writes it (R199): all that a command leaves that read there, what both write, and a gauge slot that one writes and the
other counts into (R148). -/
def unordered (j : Job) (d : Dev) : Dev :=
  (otherFlights d j.ctx j.core j.q).foldl (fun d p =>
    let same := p.1 / 4 == j.core
    let atom := j.atom && p.2.atom
    let d := if meetParts same atom j.allReads p.2.dsts = [] then d
      else j.dsts.foldl (fun d r => scrambleRegion j.core r d) d
    let d := if meetParts same atom j.dsts p.2.reads = [] then d
      else p.2.dsts.foldl (fun d r => scrambleRegion (p.1 / 4) r d) d
    let slots := meetParts same false j.dsts (gaugeRegions d (p.1 / 32) j.ctx p.2.gauge)
      ++ meetParts same false p.2.dsts (gaugeRegions d j.unit j.ctx j.gauge)
    (meetParts same atom j.dsts p.2.dsts ++ slots).foldl (fun d r => scrambleRegion j.core r d) d) d

/-- Gauge counts that a command took of data that nothing defines (R199). -/
def freeGauge (g : GaugeDelta) (d : Dev) : GaugeDelta × Dev :=
  let x := drawNat d
  ({ g with
    bins := (List.range g.bins.length).map (fun i => x.1 / 64 ^ i % 64)
    ovf := x.1 / 64 ^ g.bins.length % (g.written + 1)
    van := x.1 / 64 ^ (2 * g.bins.length + 1) % (g.written + 1) }, x.2)

/-- Whether an issuing command reads what a command of another queue in flight writes. -/
def readsUnordered (j : Job) : Bool :=
  (otherFlights j.d j.ctx j.core j.q).any (fun p =>
    meetParts (p.1 / 4 == j.core) (j.atom && p.2.atom) j.allReads p.2.dsts != [])

/-- The gauge counts of an issuing command, free values where it reads what nothing orders. -/
def settleGauge (j : Job) : Job :=
  if readsUnordered j then
    j.gauge.foldl (fun j g => let x := freeGauge g j.d; { j with gauge := j.gauge ++ [x.1], d := x.2 })
      { j with gauge := [] }
  else j

/-- A command that fails while it is in flight. -/
def failFlight (k ctx : Nat) (f : Flight) (e : Err) (d : Dev) : Dev :=
  failCmd { core := k / 4, q := k % 4, ctx := ctx, cmd := ⟨k / 4, .s, f.tag, none, false, none, false, none, false, 1, []⟩,
            loops := f.loops, pc := f.pc, count := (queueAt d (k / 4) (k % 4)).count, zstep := f.zstep, seed := 0, d := d }
    e d

/-- The granule in which a bench write of an issued command lands under the reads of a command in flight in another queue
of its core. -/
def underRead (j : Job) (f : Flight) : Option Nat :=
  let gs := granules j.writes
  (granules (f.reads.filterMap (fun r => match r with | .bench a n => some (a, n) | _ => none))).find? gs.contains

/-- With the sentinel on, a write that lands under an unfinished read is reported at the first read of the granule after
it (R204). Whether the reader has yet to read the granule is a free value. -/
def lateRaces (j : Job) (d : Dev) : Dev :=
  if (ctxAt d j.ctx).sentinel then
    (otherFlights d j.ctx j.core j.q).foldl (fun d p =>
      if p.1 / 4 ≠ j.core then d
      else
        match underRead j p.2 with
        | none => d
        | some g =>
          let x := drawNat d
          if x.1 % 2 = 0 then x.2
          else failFlight p.1 j.ctx p.2
            { cls := cmdRace, addr := packFields [(g * 64, 21), (j.q, 2), (j.cmd.tag.toNat, 32)] } x.2) d
  else d

/-! ### What an issue leaves -/

/-- The physical flags that a command's operands translated to (R314). -/
def flightKeys (d : Dev) (j : Job) (vs : List Nat) : List Nat :=
  vs.filterMap (fun v => match flagXl d j.unit j.ctx v with | .ok k => some k | .error _ => none)

def flightKey (d : Dev) (j : Job) (v : Option Nat) : Option Nat := v.bind (fun v => (flightKeys d j [v]).head?)

/-- What an issue leaves behind: consumed flags, the sentinel's record, the flight, the advanced queue
and the trace record. `keys` are the physical flags of the waits. -/
def issueJob (j : Job) (waits : List (Nat × Bool)) (keys : List Nat) (inGlue : Bool) : Dev :=
  let cons := ((waits.zip keys).filter (fun p => p.1.2)).map (·.2)
  let j := settleGauge j
  let d := cons.foldl (fun d k => flagClearKey k d) (unordered j j.d)
  let place := (queueAt d j.core j.q).place + 1
  let vc := (List.range 4).map (fun i => if i = j.q then place else j.vc.getD i 0)
  let d := if (ctxAt d j.ctx).sentinel then shadowWrites j place d else d
  let f : Flight :=
    { tag := j.cmd.tag, done := flightKey d j j.cmd.done, fset := flightKeys d j j.fset,
      fclr := flightKeys d j j.fclr, gauge := j.gauge,
      imm := j.imm, qend := j.qend, trace := j.cmd.trace, held := j.held || inGlue || j.glueMark, loops := j.loops,
      zstep := j.zstep, place := place, vc := vc, pc := j.pc, dsts := j.dsts, reads := j.allReads, atom := j.atom,
      tiles := j.tiles, zold := j.zold, later := j.later, glue := inGlue || j.glueMark }
  let d := modQueue j.core j.q (fun s =>
    { advance j.cmd.lines j.loop s with
      inflight := s.inflight ++ [f], wait := none, place := place, vc := vc, lastTag := j.cmd.tag }) d
  let d := if j.cmd.trace then trace j.core j.q 0 j.ctx j.cmd.tag j.loops j.zstep d else d
  lateRaces j (drainQueue j.ctx j.core j.q d)

/-- A CMD_RACE failure (R203): bench address, and the writing queue and tag. -/
def raceErr (r : Nat × Nat × BitVec 32 × Nat) : Err :=
  { cls := cmdRace, addr := packFields [(r.1 * 64, 21), (r.2.1, 2), (r.2.2.1.toNat, 32)] }

/-! ### Effects that come behind an issue (R181) -/

/-- Whether a command must wait for an earlier one of its queue whose effect comes behind its issue (R181): a flag that
it waits on and that the earlier one will set or clear; bench and memory behind a GLUE_COMMIT; memory behind a PLANE, but
for another PLANE, which its Planer serves after it; a gauge slot whose counts have not landed. -/
def behindOwn (j : Job) (keys : List Nat) (inGlue : Bool) (d : Dev) : Bool :=
  let touched := j.allReads ++ j.dsts
  (queueAt d j.core j.q).inflight.any (fun f =>
    keys.any (fun k => f.fset.contains k || f.fclr.contains k || f.done == some k)
    || (f.glue && !inGlue && touched.any (fun r => r.isMem || r.isBench))
    || (f.later && !j.later && touched.any Region.isMem)
    || (f.gauge != [] && meetParts true false touched (gaugeRegions d j.unit j.ctx f.gauge) != []))

/-- The step counter that a command latches at issue (R138): in another queue than an unfinished ZSTEP's, the old or the
new one. -/
def latchStep (core q : Nat) (d : Dev) : BitVec 64 × Dev :=
  let new := (coreAt d core).zstep
  match (if q = 3 then [] else (queueAt d core 3).inflight.filterMap (·.zold)) with
  | [] => (new, d)
  | olds => let x := drawNat d; ((new :: olds).getD (x.1 % (olds.length + 1)) new, x.2)

/-- The issue of a fetched command (R180): what refuses it, what it waits for, its own work, and what the issue
leaves. `accept` are the queues that take it, `engine` says that it occupies an engine, `glueOk` that it may
stand in a glue-up's body, `more` are the flags of an FWAIT and `ops` other flag operands. -/
def issueCmd (cmd : QCmd) (q ctx : Nat) (accept : List Nat) (engine glueOk : Bool) (more : List (Nat × Bool))
    (ops : List Nat) (body : Job → Except Stop Job) (d : Dev) : Dev :=
  let j := startJob cmd ctx d
  let waits := waitsOf cmd more
  let inGlue := q == 3 && (openGlue d cmd.core).isSome
  let vs := waits.map (·.1) ++ cmd.done.toList ++ ops
  if !accept.contains q then failCmd j { cls := cmdQueue } d
  else if vs.any (fun v => decide (16384 ≤ v)) || cmd.lines == 0 then failCmd j { cls := cmdDecode } d
  else if inGlue && (!glueOk || cmd.waitA.isSome || cmd.waitB.isSome) then failCmd j { cls := glueBody } d
  else
    match flagXlAll d j.unit ctx vs with
    | .error (.err e) => failCmd j e d
    | .error _ => modQueue cmd.core q (fun s => { s with wait := none }) d
    | .ok ks =>
      let d := vs.foldl (flagVisit j.unit ctx) d
      let keys := ks.take waits.length
      let busy := ((queueAt d cmd.core q).inflight.filter (fun f => !f.imm && !f.glue)).length
      if keys.any (fun k => !(pflagAt d k).value) then headWaits cmd.core q cmd.tag waits d
      else if engine && decide (flightLimit q ≤ busy) then modQueue cmd.core q (fun s => { s with wait := none }) d
      else
        let z := latchStep cmd.core q d
        let j := { j with d := z.2, zstep := z.1, vc := waitVc d cmd.core keys j.vc }
        match body j with
        | .error .wait => modQueue cmd.core q (fun s => { s with wait := none }) d
        | .error .timed => headWaits cmd.core q cmd.tag [] d
        | .error (.atClamp id qmask) => headClamp cmd q id qmask waits d
        | .error (.err e) => failCmd j e d
        | .ok j' =>
          if behindOwn j' keys inGlue d then modQueue cmd.core q (fun s => { s with wait := none }) d
          else
            match (if (ctxAt d ctx).sentinel then findRace { j' with d := d } else none) with
            | some r => failCmd j (raceErr r) d
            | none => issueJob j' waits keys inGlue

/-- A queue command at the head of its queue: nothing where the queue cannot issue; else its fetch and its
issue. -/
def runCmd (cmd : QCmd) (accept : List Nat) (engine glueOk : Bool) (more : List (Nat × Bool)) (ops : List Nat)
    (body : Job → Except Stop Job) (d : Dev) : Dev :=
  let q := queueNo cmd.queue
  match issuer d cmd.core q with
  | none => d
  | some ctx =>
    match fetchLines (startJob cmd ctx d) d with
    | .error (.err e) => fetchFail (startJob cmd ctx d) e d
    | .error _ => modQueue cmd.core q (fun s => { s with wait := none }) d
    | .ok d => issueCmd cmd q ctx accept engine glueOk more ops body d

/-! ### CLAMP (R196) -/

/-- Whether queue `p` of a core waits at a CLAMP of `id` with its `n`-th meeting. -/
def atClampN (d : Dev) (core p id n : Nat) : Option (BitVec 4) :=
  let s := queueAt d core p
  match s.wait with
  | some w => (match w.clamp with
    | some (i, m) => if i = id && s.clampNo.getD id 0 = n then some m else none
    | none => none)
  | none => none

/-- A CLAMP of queue `q` whose QMASK differs from that of a CLAMP it meets. Queue `p` of its QMASK that
has already passed its n-th CLAMP of the ID passed it without this queue, so with another QMASK. -/
def clampClash (d : Dev) (core q id : Nat) (qmask : BitVec 4) : Bool :=
  let n := (queueAt d core q).clampNo.getD id 0
  (List.range 4).any (fun p => p != q &&
    ((qmask.getLsbD p && decide (n < (queueAt d core p).clampNo.getD id 0))
     || (match atClampN d core p id n with
         | some m => m != qmask && (qmask.getLsbD p || m.getLsbD q)
         | none => false)))

/-- The queues of the meeting that queue `q` waits at, if all have reached it and drained. -/
def clampReady (d : Dev) (core q : Nat) : Option (Nat × List Nat) :=
  match (queueAt d core q).wait with
  | some w => (match w.clamp with
    | some (id, m) =>
      let n := (queueAt d core q).clampNo.getD id 0
      let ps := (List.range 4).filter (fun p => m.getLsbD p)
      if ps.all (fun p => atClampN d core p id n == some m && (queueAt d core p).inflight == [])
      then some (id, ps) else none
    | none => none)
  | none => none

/-- The flags that the head of a queue waits on, with their consume bits. -/
def headFlags (d : Dev) (core p : Nat) : List (Nat × Bool) :=
  match (queueAt d core p).wait with
  | some w => w.flags
  | none => []

/-- The CLAMP command that a queue waits at, as a command at work. -/
def clampJob (ctx core p : Nat) (d : Dev) : Job :=
  match (queueAt d core p).wait with
  | some w =>
    startJob ⟨core, if p = 0 then .l else if p = 1 then .m else if p = 2 then .v else .s, w.tag, none, false, none, false,
      w.done, w.trace, w.lines, []⟩ ctx d
  | none => startJob ⟨core, .s, 0, none, false, none, false, none, false, 1, []⟩ ctx d

/-- One queue leaves its CLAMP: the command issues, with its consumes, and completes. -/
def clampLeave (ctx core id : Nat) (vc : List Nat) (d : Dev) (p : Nat) : Dev :=
  let fs := headFlags d core p
  let j := clampJob ctx core p d
  let d := modQueue core p (fun s => { s with clampNo := s.clampNo.set id (s.clampNo.getD id 0 + 1) }) d
  match flagXlAll d (core / 8) ctx (fs.map (·.1)) with
  | .ok keys => issueJob { j with imm := true, vc := vc, d := d } fs keys false
  | .error _ => d

/-- A meeting whose queues have all reached it: each CLAMP issues only with its flags set, tested anew and consumed in one
step, and a flag serves one consume (R184); one whose flag no longer translates fails. -/
def clampTry (ctx core id : Nat) (ps : List Nat) (d : Dev) : Dev :=
  let all := ps.flatMap (headFlags d core)
  let bad := ps.findSome? (fun p => match flagXlAll d (core / 8) ctx ((headFlags d core p).map (·.1)) with
    | .error (.err e) => some (p, e)
    | _ => none)
  match bad, flagXlAll d (core / 8) ctx (all.map (·.1)) with
  | some (p, e), _ => failCmd (clampJob ctx core p d) e d
  | none, .error _ => d
  | none, .ok keys =>
    let eaten := ((all.zip keys).filter (fun x => x.1.2)).map (·.2)
    if keys.all (fun k => (pflagAt d k).value) && decide eaten.Nodup then
      ps.foldl (clampLeave ctx core id (ps.foldl (fun a p => mergeVc a (queueAt d core p).vc) [0, 0, 0, 0])) d
    else d

/-- Meetings of a core that are complete release their queues, all in one step (R196). -/
def clampMeet (core : Nat) (d : Dev) : Dev :=
  match (coreAt d core).resident with
  | none => d
  | some ctx =>
    if (ctxAt d ctx).state = .resident then
      (List.range 4).foldl (fun d q =>
        match clampReady d core q with
        | some (id, ps) => clampTry ctx core id ps d
        | none => d) d
    else d

/-- COMMAND_COMPLETE: the oldest command of a queue completes, and those after it that need no more
work. Nothing completes in a context that is not resident, but for the started passes of an M queue that a switch waits
for (R106). -/
def completeOldest (core q : Nat) (d : Dev) : Dev :=
  match (coreAt d core).resident with
  | none => d
  | some ctx =>
    let st := (ctxAt d ctx).state
    if st = .resident ∨ (st = .draining ∧ q = 1) then
      match (queueAt d core q).inflight with
      | f :: rest =>
        if f.held then d else clampMeet core (drainQueue ctx core q (completeFlight ctx core q f rest d))
      | [] => d
    else d

end Sys2Proof.Machine
end

