-- ==== Sys2Proof/Machine/Control.lean ====
section
/-!
DEFINITION. The control commands of any queue (08 R178, R195 to R197), COMMAND_COMPLETE and the stall
watchdog (13 R323, R324).
-/

namespace Sys2Proof.Machine

/-- Cores are numbered 0 to 159 on both grades (R15). -/
def coreKnown (c : Nat) : Bool := decide (c < 160)

/-- Every queue accepts the control commands (R174). -/
def anyQueue : List Nat := [0, 1, 2, 3]

/-- FSET (R195). -/
def execFset (q : QCmd) (flags : List Nat) (s : State) : Host.Outcome State Fault Refusal :=
  onDev (coreKnown q.core) (runCmd q anyQueue false false [] flags (fun j =>
    if 4 < flags.length then failCls cmdDecode else .ok { j with fset := flags })) s

/-- FCLR (R195). -/
def execFclr (q : QCmd) (flags : List Nat) (s : State) : Host.Outcome State Fault Refusal :=
  onDev (coreKnown q.core) (runCmd q anyQueue false false [] flags (fun j =>
    if 4 < flags.length then failCls cmdDecode else .ok { j with fclr := flags })) s

/-- FWAIT (R195): its flags are waits with their own consume bits. -/
def execFwait (q : QCmd) (flags : List (Nat × Bool)) (s : State) : Host.Outcome State Fault Refusal :=
  onDev (coreKnown q.core) (runCmd q anyQueue false false flags [] (fun j =>
    if 4 < flags.length then failCls cmdDecode else .ok { j with imm := true })) s

/-- CLAMP (R196). -/
def execClamp (q : QCmd) (qmask : BitVec 4) (id : Nat) (s : State) : Host.Outcome State Fault Refusal :=
  onDev (coreKnown q.core) (fun d => clampMeet q.core (runCmd q anyQueue false false [] [] (fun j =>
    if 7 < id then failCls cmdDecode
    else if !qmask.getLsbD j.q || clampClash j.d j.core j.q id qmask then failCls cmdClamp
    else .error (.atClamp id qmask)) d)) s

/-- The time that a TWAIT waits for, in fraction units (R197, R363). -/
def twaitTarget (j : Job) (t : Stepped) (frac : BitVec 16) (launchMode : Bool) : Nat :=
  (steppedVal j.loops t).toNat * 65536 + frac.toNat + (if launchMode then (queueAt j.d j.core j.q).launchT else 0)

/-- Whether the queue's head has been a TWAIT waiting for its time. -/
def twaitHeld (j : Job) : Bool :=
  match (queueAt j.d j.core j.q).wait with
  | some w => w.clamp.isNone && w.flags == [] && w.tag == j.cmd.tag
  | none => false

/-- TWAIT (R197, R362 to R364): late if its time had passed when it could first issue. A late one leaves its trace
record whatever LATE_FAULT says (R197, R522). -/
def execTwait (q : QCmd) (t : Stepped) (frac : BitVec 16) (launchMode lateFault : Bool) (s : State) :
    Host.Outcome State Fault Refusal :=
  onDev (coreKnown q.core) (runCmd q anyQueue false false [] [] (fun j =>
    let target := twaitTarget j t frac launchMode
    let now := j.d.kt.now
    if [t.base, steppedVal j.loops t].any (fun x => decide (x < 0) || decide ((2 : Int) ^ 64 ≤ x)) then failCls cmdDecode
    else if now + 60000000000 * 65536 < target then failCls cmdTime
    else if now < target then .error .timed
    else
      let late := decide (target < now) && !twaitHeld j
      let d := if late then trace j.core j.q 3 j.ctx j.cmd.tag j.loops j.zstep j.d else j.d
      if late && lateFault then .error (.err { cls := cmdLate, dev := some d })
      else .ok { j with imm := true, d := d })) s

/-- LOOP (R178): the nesting limits, then COUNT turns of the body. -/
def execLoop (q : QCmd) (count body bodyLines : Nat) (s : State) : Host.Outcome State Fault Refusal :=
  onDev (coreKnown q.core) (runCmd q anyQueue false false [] [] (fun j =>
    let ls := (queueAt j.d j.core j.q).loops
    let fits := match ls with
      | [] => true
      | l :: _ => decide (l.pos + 1 + body ≤ l.body)
    if 2 ^ 24 ≤ count ∨ body < 1 then failCls cmdDecode
    else if 255 < body || 4 ≤ ls.length || !fits then failCls cmdLoop
    else .ok { j with imm := true, loop := some (count, body, bodyLines) })) s

/-- TMARK (R195): one trace record with its tag. -/
def execTmark (q : QCmd) (s : State) : Host.Outcome State Fault Refusal :=
  onDev (coreKnown q.core) (runCmd q anyQueue false true [] [] (fun j =>
    .ok { j with imm := true, d := trace j.core j.q 2 j.ctx j.cmd.tag j.loops j.zstep j.d })) s

/-- NOP (R195). -/
def execNop (q : QCmd) (s : State) : Host.Outcome State Fault Refusal :=
  onDev (coreKnown q.core) (runCmd q anyQueue false true [] [] (fun j => .ok { j with imm := true })) s

/-- QEND (R176): issues when every earlier command of its queue has completed. -/
def execQend (q : QCmd) (s : State) : Host.Outcome State Fault Refusal :=
  onDev (coreKnown q.core) (runCmd q anyQueue false false [] [] (fun j =>
    if (queueAt j.d j.core j.q).inflight = [] then .ok { j with imm := true, qend := true }
    else .error .wait)) s

/-- COMMAND_COMPLETE (R180): the oldest issued command of a queue completes. -/
def execCommandComplete (core : Nat) (queue : Queue) (s : State) : Host.Outcome State Fault Refusal :=
  onDev (coreKnown core) (completeOldest core (queueNo queue)) s

/-! ### The stall watchdog -/

/-- The head tag of a queue (R200). -/
def headTag (s : QueueSt) : BitVec 32 :=
  match s.inflight with
  | f :: _ => f.tag
  | [] => (match s.wait with | some w => w.tag | none => 0)

/-- An awaited-flag entry (R324). -/
def awaitedEntry (d : Dev) (u ctx : Nat) (w : Nat × Bool) : Nat :=
  let p := match flagXl d u ctx w.1 with
    | .ok k => pflagAt d k
    | .error _ => {}
  packFields [(w.1, 14), (1, 1), (bit01 w.2, 1), (bit01 p.value, 1), (p.gen.toNat, 8)]

/-- The four awaited-flag entries of a queue (R324). -/
def awaitedEntries (d : Dev) (u ctx : Nat) (s : QueueSt) : Nat :=
  match s.wait with
  | some w => packFields ((w.flags.take 4).map (fun f => (awaitedEntry d u ctx f, 32)))
  | none => 0

/-- Whether a queue's head waits on a flag or at a CLAMP, and since when (R323). -/
def stallSince (s : QueueSt) : Option Nat :=
  match s.wait with
  | some w => if s.running && (w.clamp.isSome || w.flags != []) then some w.since else none
  | none => none

/-- Insertion by rising time. -/
def insertBySince (x : Nat × Nat) : List (Nat × Nat) → List (Nat × Nat)
  | [] => [x]
  | y :: ys => if x.1 < y.1 then x :: y :: ys else y :: insertBySince x ys

/-- The other waiting queues of a context, longest wait first (R324): keys 4 × core + queue. -/
def otherWaiters (d : Dev) (ctx me : Nat) : List Nat :=
  let ws := d.queues.filterMap (fun p =>
    if p.1 != me && (coreAt d (p.1 / 4)).resident == some ctx then
      (stallSince p.2).map (fun t => (t, p.1)) else none)
  (ws.foldl (fun l x => insertBySince x l) []).map (·.2)

/-- CLAMP ID and at-CLAMP bits of a queue (R324). -/
def clampBits (s : QueueSt) : Nat :=
  match s.wait with
  | some w => (match w.clamp with | some (id, _) => packFields [(id, 4), (1, 1)] | none => 0)
  | none => 0

/-- Extension record k of a QSTALL (R324). -/
def stallExt (d : Dev) (ctx : Nat) (mine : Nat) (other : Option Nat) : Nat :=
  match other with
  | none => packFields [(mine, 128)]
  | some k =>
    let s := mapGet {} d.queues k
    let ls := loopIndexes s.loops
    packFields [(mine, 128), (0x2000 + k, 16), ((headTag s).toNat, 32), (ls.getD 0 0, 24), (ls.getD 1 0, 24),
      (ls.getD 2 0, 24), (ls.getD 3 0, 24), (awaitedEntries d (k / 32) ctx s, 128), (clampBits s, 5)]

/-- The QSTALL record (R324). -/
def stallRecord (d : Dev) (ctx core q : Nat) : ErrRec :=
  let s := queueAt d core q
  let mine := awaitedEntries d (core / 8) ctx s
  let others := (otherWaiters d ctx (4 * core + q)).take 7
  { cls := qstallCls, kind := 2, unit := unitQueue core q, tag := headTag s,
    detail := cmdDetail (loopIndexes s.loops) s.pc s.count (clampBits s),
    exts := match others with
      | [] => [stallExt d ctx mine none]
      | o :: os => stallExt d ctx mine (some o) :: os.map (fun k => stallExt d ctx 0 (some k)) }

/-- CTX.WDOG_MS in force (R326). -/
def wdogMs (x : Ctx) : Nat := if x.wdogMs = 0 then 100 else x.wdogMs

/-- Whether a new trigger takes a hang record: none is stored or under way (R504, R505). -/
def hangFree (d : Dev) : Bool := d.pier.hang.isNone && d.pier.hangBusy.isNone

/-- A trigger of the hang record: the pier begins one, or HR.MISSED advances (R504, R505). -/
def hangTrigger (cause ctx : Nat) (d : Dev) : Dev :=
  let h : HangRec := { cause := cause, level := d.pier.debug, ctx := ctx, start := nowNs d }
  if hangFree d then { d with pier := { d.pier with hangBusy := some h } }
  else { d with pier := { d.pier with hangMissed := min (d.pier.hangMissed + 1) (2 ^ 32 - 1) } }

/-- QSTALL (R323, R324): a queue whose head has waited on a flag or at a CLAMP for CTX.WDOG_MS faults its
context. -/
def stallFire (core q : Nat) (d : Dev) : Dev :=
  match (coreAt d core).resident with
  | none => d
  | some ctx =>
    if (ctxAt d ctx).state = .resident then
      match stallSince (queueAt d core q) with
      | some t =>
        if t + wdogMs (ctxAt d ctx) * 1000000 ≤ nowNs d then
          hangTrigger 1 ctx (faultCtx ctx { stallRecord d ctx core q with trig := hangFree d } d)
        else d
      | none => d
    else d

def execQstall (core : Nat) (queue : Queue) (s : State) : Host.Outcome State Fault Refusal :=
  onDev (coreKnown core) (stallFire core (queueNo queue)) s

end Sys2Proof.Machine
end

