-- ==== Sys2Proof/Machine/Reductions.lean ====
section
/-!
DEFINITION. Reduction records (03 R51 to R65, R76), their anchors (R54, R55, R60), the reduction posts
(11 R267), span words and span records (03 R46, R50, 05 R123).
-/

namespace Sys2Proof.Machine

/-- A reduction record (R53). `emax` and the anchors are s16; −32,768 means none. -/
structure Red where
  path : Nat
  w128 : Bool
  hall : Bool
  isOpen : Bool
  resolved : Bool
  error : Bool
  single : Bool
  fmt : Nat
  sat : Bool
  l0 : Int
  l : Int
  emax : Int
  k : Nat
  count : Nat
  surveyA : Nat
  surveyB : Nat
  flagSurvey : Nat
  flagDone : Nat
  collective : Nat
  pend : BitVec 160
  deriving DecidableEq, Repr

/-- The code of RED.PATH. -/
def pathNo : RedPath → Nat
  | .survey => 0 | .hint => 1 | .integer => 2 | .s5 => 3

/-- No exponent, as an s16. -/
def noExp : Int := -32768

/-- The largest of two exponents, none being below every value. -/
def maxExp (a b : Int) : Int := max a b

def parseRed (bs : List Byte) : Red :=
  let w0 := leAt bs 0 8
  let w2 := leAt bs 0x10 8
  let w3 := leAt bs 0x18 8
  { path := bitsOf w0 1 0, w128 := bitOf w0 2, hall := bitOf w0 3, isOpen := bitOf w0 4,
    resolved := bitOf w0 5, error := bitOf w0 6, single := bitOf w0 7, fmt := bitsOf w0 11 8,
    sat := bitOf w0 12, l0 := ofTwos 16 (bitsOf w0 31 16), l := ofTwos 16 (bitsOf w0 47 32),
    emax := ofTwos 16 (bitsOf w0 63 48), k := bitsOf (leAt bs 8 8) 43 0, count := bitsOf w2 43 0,
    surveyA := bitsOf w2 55 48, surveyB := bitsOf w2 63 56, flagSurvey := bitsOf w3 13 0,
    flagDone := bitsOf w3 29 16, collective := bitsOf w3 63 32,
    pend := BitVec.ofNat 160 (leAt bs 0x20 20) }

def packRed (r : Red) : List Byte :=
  leBytes 8 (packFields [(r.path, 2), (bit01 r.w128, 1), (bit01 r.hall, 1), (bit01 r.isOpen, 1),
    (bit01 r.resolved, 1), (bit01 r.error, 1), (bit01 r.single, 1), (r.fmt, 4), (bit01 r.sat, 1), (0, 3),
    (toTwos 16 r.l0, 16), (toTwos 16 r.l, 16), (toTwos 16 r.emax, 16)])
  ++ leBytes 8 (r.k % 2 ^ 44)
  ++ leBytes 8 (packFields [(r.count, 44), (0, 4), (r.surveyA, 8), (r.surveyB, 8)])
  ++ leBytes 8 (packFields [(r.flagSurvey, 14), (0, 2), (r.flagDone, 14), (0, 2), (r.collective, 32)])
  ++ leBytes 20 r.pend.toNat ++ leBytes 12 0

/-- Device-virtual address of a record. -/
def redVa (d : Dev) (ctx slot : Nat) : Nat := (ctxAt d ctx).redBase + 64 * slot

/-- Reads a record; a poisoned one is consumed (R245). -/
def redLoad (u ctx slot : Nat) (d : Dev) : Except Stop (Red × Dev) :=
  match vTake u ctx (redVa d ctx slot) 64 d with
  | .error e => .error e
  | .ok (bs, d) => .ok (parseRed bs, d)

def redStore (u ctx slot : Nat) (r : Red) (d : Dev) : Except Stop Dev :=
  vWrite u ctx (redVa d ctx slot) (packRed r) d

/-- A failure that fails the reduction (R76) with the state reached. -/
def failRedAt {α : Type} (cls slot : Nat) (d : Dev) : Except Stop α :=
  .error (.err { cls := cls, addr := slot, red := some slot, dev := some d })

/-! ### Anchors (R54, R55, R60) -/

/-- Transport width of a reduction (R53, R67). -/
def Red.w (r : Red) : Int := if r.path = 2 then 64 else if r.w128 then 128 else 64

/-- Whether an anchor fits a largest exponent (R54). -/
def anchorFits (emax : Int) (k : Nat) (l w : Int) : Bool :=
  emax == noExp || decide (emax + clog2 k + 1 < l + w)

/-- The smallest L0 + 16n that fits, none above 32,767 (R60, R61). -/
def firstFit (l0 emax : Int) (k : Nat) (w : Int) : Option Int :=
  let l :=
    if anchorFits emax k l0 w then l0
    else l0 + 16 * ((emax + clog2 k + 2 - w - l0 + 15) / 16)
  if l ≤ 32767 then some l else none

/-- RED.L of the survey path (R55). -/
def surveyAnchor (r : Red) : Int :=
  let b := (fmtP r.fmt).bound
  let e : Int :=
    if r.single then b + ((r.surveyA : Int) - 127)
    else 2 * b + ((r.surveyA : Int) - 127) + ((r.surveyB : Int) - 127)
  e + clog2 r.k + 1 - (r.w - 1)

/-! ### Resolution (R56, R58, R61, R65) -/

/-- A flag that a record names (R314): a failed translation sets RED.ERROR, and a poisoned table line is consumed. -/
def redFlag (u ctx slot v : Nat) (d : Dev) : Except Stop Dev :=
  match flagXl d u ctx v with
  | .ok k => .ok (flagSetKey k none (flagVisit u ctx d v))
  | .error (.err e) =>
    if e.cls = poisonCls then .error (.err { e with dev := some d }) else .ok (setRedError u ctx slot d)
  | .error e => .error e

/-- Participants of an open reduction. -/
def redParts (d : Dev) (ctx slot : Nat) : BitVec 160 := mapGet 0 d.parts (ctx * 1024 + slot)

/-- The meta record of a reduction record (R417). -/
def metaOf (survey : Bool) (r : Red) : BitVec 256 :=
  BitVec.ofNat 256 (packFields [(toTwos 16 r.emax, 16), (r.surveyA, 8), (r.surveyB, 8), (0, 32),
    (r.count, 44), (0, 20), (r.k, 44), (toTwos 16 r.l0, 16), (r.fmt, 4), (bit01 r.single, 1),
    (bit01 r.w128, 1), (r.path, 2), (0, 1), (bit01 survey, 1)])

/-- Hands a record to the metadata exchange of its span collective (R56, R64). -/
def handMeta (ctx slot : Nat) (survey : Bool) (r : Red) (d : Dev) : Dev :=
  { d with fab := { d.fab with
      waits := d.fab.waits ++ [{ ctx := ctx, slot := slot, mrec := metaOf survey r }] } }

/-- The close of a record: its final anchor, RED.RESOLVED and RED.FLAG_DONE. -/
def closeDone (u ctx slot : Nat) (r : Red) (d : Dev) : Except Stop Dev :=
  match (if r.path = 1 then firstFit r.l0 r.emax r.k r.w else some r.l) with
  | none => failRedAt spanAnchorRange slot d
  | some l =>
    match redStore u ctx slot { r with l := l, resolved := true } d with
    | .error e => .error e
    | .ok d => redFlag u ctx slot r.flagDone d

/-- The close posts are in: the record closes, or goes to the exchange under hall scope. -/
def closeAll (u ctx slot : Nat) (r : Red) (d : Dev) : Except Stop Dev :=
  if r.hall then
    match redStore u ctx slot r d with
    | .error e => .error e
    | .ok d => .ok (handMeta ctx slot false r d)
  else closeDone u ctx slot r d

/-- The survey's maxima are final: RED.L by R55, RED.RESOLVED, RED.FLAG_SURVEY, and RED.PEND set again to
the participants; with none of them the close follows (R65). -/
def surveyDone (u ctx slot : Nat) (r : Red) (d : Dev) : Except Stop Dev :=
  let l := surveyAnchor r
  if l < -32767 ∨ 32767 < l then failRedAt spanAnchorRange slot d
  else
    let r := { r with l := l, resolved := true, pend := redParts d ctx slot }
    match redStore u ctx slot r d with
    | .error e => .error e
    | .ok d =>
      match redFlag u ctx slot r.flagSurvey d with
      | .error e => .error e
      | .ok d => if r.pend = 0 then closeAll u ctx slot r d else .ok d

/-- The survey posts are in. -/
def surveyAll (u ctx slot : Nat) (r : Red) (d : Dev) : Except Stop Dev :=
  if r.hall then
    match redStore u ctx slot r d with
    | .error e => .error e
    | .ok d => .ok (handMeta ctx slot true r d)
  else surveyDone u ctx slot r d

/-! ### SPAN_OPEN (R51, R53, R65, R74) -/

/-- Whether a path allows a format and panels (R51, R67, R74). The S5-order path takes products only: what it does with
single values the spec leaves open (DESIGN CHOICE, log entry 39). -/
def pathAllows (f : SpanOpenF) : Bool :=
  let float := decide (f.fmt ≤ 4) || f.fmt == 7 || f.fmt == 8
  match f.path with
  | .survey => float
  | .hint => float && !f.panel
  | .integer => (f.fmt == 5 || f.fmt == 6) && !f.panel
  | .s5 => decide (f.fmt ≤ 3) && !f.panel && !f.single

/-- The record that SPAN_OPEN writes. -/
def openedRed (f : SpanOpenF) : Red :=
  { path := pathNo f.path, w128 := f.w128, hall := f.hall, isOpen := true, resolved := f.path == .integer,
    error := false, single := f.single, fmt := f.fmt, sat := false, l0 := f.l0,
    l := if f.path = .hint then f.l0 else 0, emax := noExp, k := f.k, count := 0, surveyA := 0,
    surveyB := 0, flagSurvey := f.flagSurvey, flagDone := f.flagDone, collective := f.collective.toNat,
    pend := f.cores }

/-- SPAN_OPEN of a record. -/
def spanOpenRed (u ctx : Nat) (f : SpanOpenF) (d : Dev) : Except Stop Dev :=
  if 1023 < f.rslot ∨ 16383 < f.flagSurvey ∨ 16383 < f.flagDone ∨ !fmtKnown f.fmt
      ∨ f.l0 < -32768 ∨ 32767 < f.l0 then failCls cmdDecode
  else
    match redLoad u ctx f.rslot d with
    | .error e => .error e
    | .ok (old, d) =>
      if old.isOpen then failAddr spanSlot f.rslot
      else if 2 ^ 44 ≤ f.k ∨ 2 ^ 31 < f.indexSpace.getD 0 then failRedAt spanCount f.rslot d
      else if f.path = .hint ∧ f.l0 = -32768 then failRedAt spanAnchorRange f.rslot d
      else if !pathAllows f then failRedAt spanMismatch f.rslot d
      else
        let r := openedRed f
        let d := { d with parts := mapPut 0 (ctx * 1024 + f.rslot) f.cores d.parts }
        match redStore u ctx f.rslot r d with
        | .error e => .error e
        | .ok d =>
          match (if f.path = .integer then redFlag u ctx f.rslot f.flagSurvey d else .ok d) with
          | .error e => .error e
          | .ok d =>
            if f.cores = 0 then
              (if f.path = .survey then surveyAll u ctx f.rslot r d else closeAll u ctx f.rslot r d)
            else .ok d

/-! ### Posts (R267) -/

/-- A poster's record: open, and its RED.PEND bit set. -/
def posterRed (u ctx slot core : Nat) (d : Dev) : Except Stop (Red × Dev) :=
  match redLoad u ctx slot d with
  | .error e => .error e
  | .ok (r, d) => if r.isOpen && r.pend.getLsbD core then .ok (r, d) else failRedAt spanSlot slot d

/-- Clears a core's RED.PEND bit. -/
def clearPend (p : BitVec 160) (core : Nat) : BitVec 160 := p &&& ~~~(BitVec.twoPow 160 core)

/-- A survey post (R56): maxima of the scale bytes, none where an operand contributes nothing. -/
def surveyPost (u ctx slot core : Nat) (a b : Option Nat) (d : Dev) : Except Stop Dev :=
  match posterRed u ctx slot core d with
  | .error e => .error e
  | .ok (r, d) =>
    if r.path ≠ 0 then failRedAt spanMismatch slot d
    else if r.resolved then failRedAt spanSlot slot d
    else
      let r := { r with
        surveyA := max r.surveyA (a.getD 0)
        surveyB := max r.surveyB (b.getD 0)
        pend := clearPend r.pend core }
      if r.pend = 0 then surveyAll u ctx slot r d else redStore u ctx slot r d

/-! ### Terms and sticky bits (R47, R50) -/

/-- Sticky bits: NAN_SEEN, PINF_SEEN, NINF_SEEN. -/
structure Sticky where
  nan : Bool := false
  pinf : Bool := false
  ninf : Bool := false
  deriving DecidableEq, Repr

def Sticky.or (a b : Sticky) : Sticky := ⟨a.nan || b.nan, a.pinf || b.pinf, a.ninf || b.ninf⟩

/-- What a term sets: a NaN (a NaN operand or ∞ × 0), an infinity, or nothing. -/
def stickyOf : Val → Sticky
  | .nan => { nan := true }
  | .inf n => { pinf := !n, ninf := n }
  | .fin _ _ _ => {}

/-- The value of a finished reduction (R49, R50). -/
def spanVal (i : Int) (l : Int) (s : Sticky) : Val :=
  if s.nan || (s.pinf && s.ninf) then .nan
  else if s.pinf then .inf false
  else if s.ninf then .inf true
  else .fin (decide (i < 0)) i.natAbs l

/-- The exponent of a term, none as −32,768. -/
def termExp (v : Val) : Int := (v.expo).getD noExp

/-! ### Span records (R123) -/

structure SpanRec where
  i : Int := 0
  anchor : Int := 0
  eobs : Int := noExp
  sticky : Sticky := {}
  redo : Bool := false
  valid : Bool := false
  rslot : Nat := 0
  redone : Bool := false
  count : Nat := 0
  deriving DecidableEq, Repr

def parseSpan (bs : List Byte) : SpanRec :=
  let x := ofLe bs
  { i := ofTwos 128 x, anchor := ofTwos 16 (bitsOf x 143 128), eobs := ofTwos 16 (bitsOf x 159 144),
    sticky := ⟨bitOf x 171, bitOf x 172, bitOf x 173⟩, redo := bitOf x 174, valid := bitOf x 175,
    rslot := bitsOf x 185 176, redone := bitOf x 186, count := bitsOf x 235 192 }

def packSpan (r : SpanRec) : List Byte :=
  leBytes 32 (packFields [(toTwos 128 r.i, 128), (toTwos 16 r.anchor, 16), (toTwos 16 r.eobs, 16), (0, 11),
    (bit01 r.sticky.nan, 1), (bit01 r.sticky.pinf, 1), (bit01 r.sticky.ninf, 1), (bit01 r.redo, 1),
    (bit01 r.valid, 1), (r.rslot, 10), (bit01 r.redone, 1), (0, 5), (r.count, 44)])

/-! ### Close posts (R58, R61, R65, R191) -/

/-- What a close post carries for its whole share (R191). -/
structure ClosePost where
  anchor : Int
  eobs : Int
  sticky : Sticky
  count : Nat
  deriving DecidableEq, Repr

/-- The post of a share whose first word is `x`: the smallest anchor, the largest exponent, the OR of the sticky bits, and
the term count of one of the words. -/
def postOf (x : SpanRec) (rs : List SpanRec) : ClosePost :=
  { anchor := rs.foldl (fun a r => min a r.anchor) x.anchor
    eobs := rs.foldl (fun e r => maxExp e r.eobs) noExp
    sticky := rs.foldl (fun s r => s.or r.sticky) {}
    count := x.count }

/-- A close post (R58, R61, R65). The record of R53 has no place for the sticky bits that the post brings, and R267 changes
nothing by them: every word carries its own. -/
def closePost (u ctx slot core : Nat) (p : ClosePost) (d : Dev) : Except Stop Dev :=
  match posterRed u ctx slot core d with
  | .error e => .error e
  | .ok (r, d) =>
    if r.path = 0 ∧ !r.resolved then failRedAt spanUnresolved slot d
    else if r.path = 1 ∧ (p.anchor < r.l0 ∨ (p.anchor - r.l0) % 16 ≠ 0) then failRedAt spanMismatch slot d
    else if (r.path = 0 ∨ r.path = 2) ∧ p.anchor ≠ r.l then failRedAt spanMismatch slot d
    else
      let r := { r with
        emax := maxExp r.emax p.eobs
        count := r.count + p.count
        pend := clearPend r.pend core }
      if r.k < r.count then
        match redStore u ctx slot r d with
        | .error e => .error e
        | .ok d => failRedAt spanCount slot d
      else if r.pend = 0 then closeAll u ctx slot r d else redStore u ctx slot r d

/-- Reads span records of the bench (R123): 32-byte aligned; a poisoned one is reported. -/
def readSpans (base : Int) (n : Nat) (j : Job) : Except Stop (List (SpanRec × Bool) × Job) :=
  if base < 0 ∨ base % 32 ≠ 0 ∨ (benchSize : Int) < base + 32 * n then failCls cmdBenchRange
  else
    let b := base.toNat
    .ok ((List.range n).map (fun i => (parseSpan (benchRead j.d j.core (b + 32 * i) 32),
      benchPoisoned j.d j.core (b + 32 * i) 32)), { j with reads := (b, 32 * n) :: j.reads })

/-! ### Joist rows as records -/

/-- Sticky bits of span word `j` of a row. -/
def rowSticky (r : JRow) (j : Nat) : Sticky := ⟨r.nan.getLsbD j, r.pinf.getLsbD j, r.ninf.getLsbD j⟩

/-- Span word `j` of a row. -/
def rowWord (r : JRow) (j : Nat) : Int := (r.words.getD j 0).toInt

/-- A row with sticky bits ORed into word `j`. -/
def rowStick (r : JRow) (j : Nat) (s : Sticky) : JRow :=
  { r with
    nan := if s.nan then r.nan ||| BitVec.twoPow 32 j else r.nan
    pinf := if s.pinf then r.pinf ||| BitVec.twoPow 32 j else r.pinf
    ninf := if s.ninf then r.ninf ||| BitVec.twoPow 32 j else r.ninf }

/-- A row with word `j` replaced. -/
def rowPut (r : JRow) (j : Nat) (i : Int) : JRow := { r with words := r.words.set j (BitVec.ofInt 128 i) }

/-- The sticky bits of a whole row. -/
def rowStickyAll (r : JRow) : Sticky := ⟨r.nan != 0, r.pinf != 0, r.ninf != 0⟩

/-- Span word `j` of a row as a span record (R265). -/
def rowSpan (r : JRow) (j : Nat) : SpanRec :=
  { i := rowWord r j, anchor := r.anchor, eobs := r.eobs, sticky := rowSticky r j, redo := r.redo,
    valid := r.valid, rslot := r.rslot, redone := r.redone, count := r.count }

/-- A failed output check (R63, R76, R92): the reduction must be resolved, and the words at its final
anchor without REDO. S5-order words carry no anchor (R74). -/
def outputCheck (slot : Nat) (r : Red) (anchor : Int) (redo s5 : Bool) (d : Dev) : Except Stop Unit :=
  if !r.resolved then failRedAt spanUnresolved slot d
  else if redo || (!s5 && anchor != r.l) then failRedAt spanRedoPending slot d
  else .ok ()

/-- The check of R66 before a word leaves: at 64 bits, bits [127:63] are all equal. -/
def widthOk (w : Int) (i : Int) : Bool :=
  decide (w = 128) || (decide (-(2 : Int) ^ 63 ≤ i) && decide (i < (2 : Int) ^ 63))

end Sys2Proof.Machine
end

