-- ==== Sys2Proof/Machine/LoadQ.lean ====
section
/-!
DEFINITION. The commands of the L queue (08 R190): LOAD, GATHER (09 R217 to R220), SPAN_SURVEY (03 R56)
and JRAW_LOAD (03 R72, R73). The L queue copies bits unchanged and carries poison (10 R245).
-/

namespace Sys2Proof.Machine

/-- Elements of a descriptor read as raw bits, each with its poison. -/
def readRaw (t : Tens) (j : Job) : Except Stop (List (Nat × Bool) × Job) :=
  match readTens { t with panel := false } j with
  | .error e => .error e
  | .ok (l, j) => .ok (l.map (fun e => (e.bits, e.poison)), j)

/-- Marks the bench bytes of poisoned elements. -/
def spreadPoison (ws : List (BitWrite × Bool)) (j : Job) : Job :=
  { j with d := ws.foldl (fun d p =>
      if p.2 then benchPoison j.core (elemBytes p.1.w p.1.at_).1 (elemBytes p.1.w p.1.at_).2 d else d) j.d }

/-- Copies raw elements to bench bit addresses, poison with them. -/
def copyToBench (w : Nat) (dst : List Int) (es : List (Nat × Bool)) (j : Job) : Except Stop Job :=
  let ws := (dst.zip es).map (fun p => ((⟨p.1, w, p.2.1⟩ : BitWrite), p.2.2))
  match putWrites true (ws.map (·.1)) j with
  | .error e => .error e
  | .ok j => .ok (spreadPoison ws j)

/-- The scale bytes of a descriptor's panels in delivery order (R190, R217). -/
def panelAddrs (x : Desc192) (mitre : Bool) : List Int :=
  let swap := fun l : List Nat => match l with
    | a :: b :: r => b :: a :: r
    | l => l
  let ss := scaleSizes x
  let ivs := if mitre then (indexVecs (swap ss)).map swap else indexVecs ss
  ivs.map (fun iv => (x.scaleBase : Int) + dotIdx iv x.sstride)

/-- Copies the scale bytes of a panelled source to SCALE_DST (R190). -/
def copyScales (x : Desc192) (mitre : Bool) (dst : Int) (stride : Int) (j : Job) : Except Stop Job :=
  let src := panelAddrs x mitre
  let n := src.length
  let at_ := (List.range n).map (fun k : Nat => dst + (k : Int) * stride)
  if at_.any (fun a => decide (a < 0) || decide ((benchSize : Int) ≤ a)) then failCls cmdBenchRange
  else if 1 < n ∧ stride = 0 then failCls cmdAlias
  else
    let t : Tens := { descTens x mitre with width := 8, panel := false, addrs := src.map (· * 8), scales := [] }
    match readRaw t j with
    | .error e => .error e
    | .ok (es, j) => copyToBench 8 (at_.map (· * 8)) es j

/-- LOAD's work. -/
def loadBody (f : LoadF) (j : Job) : Except Stop Job :=
  match readDesc j.d j.ctx (steppedVal j.loops f.src) with
  | .error e => .error e
  | .ok x =>
    let j := j.tableRead (steppedVal j.loops f.src)
    if x.idxEn then failCls descUse
    else
      let t := descTens x f.mitre
      match checkBench j.loops t.width true f.dst with
      | .error e => .error e
      | .ok _ =>
        let dst := benchBits j.loops t.width f.dst
        if dst.length ≠ t.count then failCls cmdOperand
        else
          let rs := dst.map (fun a => Region.bench (elemBytes t.width a).1 (elemBytes t.width a).2)
          withDsts rs (match readRaw t j with
            | .error e => .error e
            | .ok (es, j) =>
              let copied := match f.scaleDst with
                | some s => if x.panel then copyScales x f.mitre (steppedVal j.loops s) f.scaleStride j else .ok j
                | none => .ok j
              match copied with
              | .error e => .error e
              | .ok j => copyToBench t.width dst es j)

/-- LOAD (R190, R217). -/
def execLoad (q : QCmd) (f : LoadF) (s : State) : Host.Outcome State Fault Refusal :=
  onDev (coreKnown q.core) (runCmd q [0] true false [] [] (loadBody f)) s

/-- Reads an INT32 index operand (R218); a poisoned index is consumed (R219). -/
def readIndexes (idx : BenchOp) (j : Job) : Except Stop (List Int × Job) :=
  match checkBench j.loops 32 false idx with
  | .error e => .error e
  | .ok _ =>
    let t : Tens := ⟨true, 9, 32, false, benchBits j.loops 32 idx, [], 0, [], 0⟩
    match readTens t j with
    | .error e => .error e
    | .ok (es, j) =>
      match (es.zip t.addrs).find? (fun p => p.1.poison) with
      | some p => failAddr poisonCls (elemAddr p.2)
      | none => .ok (es.map (fun e => ofTwos 32 e.bits), j)

/-- The first index outside 0 to SIZE_g − 1, as its ordinal and value (R218, R219). -/
def badIndex (size : Nat) (ts : List Int) : Option (Nat × Int) :=
  ((List.range ts.length).zip ts).find? (fun p => decide (p.2 < 0) || decide ((size : Int) ≤ p.2))

/-- DESC_INDEX: the ordinal and the value. -/
def failIndex {α : Type} (p : Nat × Int) : Except Stop α :=
  failAddr descIndex (packFields [(p.1, 32), (toTwos 32 p.2, 32)])

/-- The tensor that an indexed descriptor and index values give (R218). -/
def indexedTens (x : Desc192) (ts : List Int) (mitre : Bool) : Tens :=
  descElems x (x.size.set x.idxDim ts.length) mitre
    (fun iv => iv.set x.idxDim (ts.getD (iv.getD x.idxDim 0) 0).toNat)

/-- The number of elements that an indexed descriptor and an index operand give (R218). -/
def indexedCount (x : Desc192) (idx : BenchOp) : Nat := prodList (x.size.set x.idxDim (prodList (idx.dims.map (·.1))))

/-- Whether an indexed command is empty (R210, R218): a size of 0, or an empty IDX. -/
def indexedEmpty (x : Desc192) (idx : BenchOp) : Bool := prodList x.size == 0 || indexedCount x idx == 0

/-- GATHER's work; an empty one reads no index (R186). -/
def gatherBody (f : GatherF) (j : Job) : Except Stop Job :=
  match readDesc j.d j.ctx (steppedVal j.loops f.src) with
  | .error e => .error e
  | .ok x =>
    let j := j.tableRead (steppedVal j.loops f.src)
    let w := descWidth x
    let dst := benchBits j.loops w f.dst
    if !x.idxEn then failCls descUse
    else
      match checkBench j.loops w true f.dst, checkBench j.loops 32 false f.idx with
      | .error e, _ => .error e
      | _, .error e => .error e
      | .ok _, .ok _ =>
        if dst.length ≠ indexedCount x f.idx then failCls cmdOperand
        else if indexedEmpty x f.idx then .ok j
        else
          match readIndexes f.idx j with
          | .error e => .error e
          | .ok (ts, j) =>
            let rs := dst.map (fun a => Region.bench (elemBytes w a).1 (elemBytes w a).2)
            withDsts rs (match badIndex (x.size.getD x.idxDim 0) ts with
              | some p => failIndex p
              | none =>
                match readRaw (indexedTens x ts f.mitre) j with
                | .error e => .error e
                | .ok (es, j) => copyToBench w dst es j)

/-- GATHER (R190, R218 to R220). -/
def execGather (q : QCmd) (f : GatherF) (s : State) : Host.Outcome State Fault Refusal :=
  onDev (coreKnown q.core) (runCmd q [0] true false [] [] (gatherBody f)) s

/-- The maximum of a scale plane (R55, R56): none where it is empty or holds only 0xFF. -/
def scaleMax (bs : List Nat) : Option Nat :=
  (bs.filter (fun b => b != 0xFF)).foldl (fun a b => some (max (a.getD 0) b)) none

/-- What an operand posts to the survey (R56): 127 if it is not named. -/
def surveyByte (o : Option BenchOp) (j : Job) : Except Stop (Option Nat × Job) :=
  match o with
  | none => .ok (some 127, j)
  | some op =>
    match checkBench j.loops 8 false op with
    | .error e => .error e
    | .ok _ =>
      let t : Tens := ⟨true, 5, 8, false, benchBits j.loops 8 op, [], 0, [], 0⟩
      match readTens t j with
      | .error e => .error e
      | .ok (es, j) =>
        match (es.zip t.addrs).find? (fun p => p.1.poison) with
        | some p => failAddr poisonCls (elemAddr p.2)
        | none => .ok (scaleMax (es.map (·.bits)), j)

/-- SPAN_SURVEY's work. -/
def surveyBody (rslot : Nat) (a b : Option BenchOp) (j : Job) : Except Stop Job :=
  if 1023 < rslot then failCls cmdDecode
  else
    match surveyByte a j with
    | .error e => .error e
    | .ok (va, j) =>
      match surveyByte b j with
      | .error e => .error e
      | .ok (vb, j) =>
        match surveyPost j.unit j.ctx rslot j.core va vb j.d with
        | .error e => .error e
        | .ok d => .ok { j with d := d, atom := true }

/-- SPAN_SURVEY (R56, R267). -/
def execSpanSurvey (q : QCmd) (rslot : Nat) (a b : Option BenchOp) (s : State) :
    Host.Outcome State Fault Refusal :=
  onDev (coreKnown q.core) (runCmd q [0] true false [] [] (surveyBody rslot a b)) s

/-- The checks of a raw row move (R190): ROWS, the tile, and the bench range of 544-byte records. -/
def rawCheck (base : Int) (joistBase rows : Nat) : Except Stop Nat :=
  if 1023 < joistBase ∨ rows < 1 ∨ 256 < rows then failCls cmdDecode
  else if 256 < joistBase % 256 + rows then failCls cmdOperand
  else if base < 0 ∨ (benchSize : Int) < base + 544 * rows then failCls cmdBenchRange
  else .ok base.toNat

/-- JRAW_LOAD's work: rows with their tags, poison with them (R234). -/
def rawLoadBody (src : Stepped) (joistBase rows : Nat) (j : Job) : Except Stop Job :=
  match rawCheck (steppedVal j.loops src) joistBase rows with
  | .error e => .error e
  | .ok b =>
    let d := (List.range rows).foldl (fun d i =>
      let r := parseRow (benchRead j.d j.core (b + 544 * i) 544)
      let r := { r with poison := r.poison || benchPoisoned j.d j.core (b + 544 * i) 544 }
      setJrow j.core (joistBase + i) r d) j.d
    .ok { j with d := d, reads := (b, 544 * rows) :: j.reads, dsts := Region.rows joistBase rows :: j.dsts }

/-- JRAW_LOAD (R73, R190). -/
def execJrawLoad (q : QCmd) (src : Stepped) (joistBase rows : Nat) (s : State) :
    Host.Outcome State Fault Refusal :=
  onDev (coreKnown q.core) (runCmd q [0] true false [] [] (rawLoadBody src joistBase rows)) s

end Sys2Proof.Machine
end

