-- ==== Sys2Proof/Machine/Ieee.lean ====
section
/-!
DEFINITION. IEEE 754-2019 arithmetic of the vector engine in binary32 and binary64 (02 R36, R37;
05 R113). Every operation maps bit patterns to a bit pattern with the status flags it raises. The
format code `c` is 7 or 8; `ftz` is VEC.FTZ.
-/

namespace Sys2Proof.Machine

/-- A result with its flags. -/
abbrev FlagRes := Nat × BitVec 5

/-- Canonical quiet NaN of the precision (R36). -/
def qNan (c : Nat) : Nat := ((fmtP c).nanEnc).getD 0

/-- A subnormal pattern of the precision. -/
def isSubnormal (c bits : Nat) : Bool :=
  let f := fmtP c
  bitsOf bits (f.width - 2) f.p == 0 && bits % 2 ^ f.p != 0

/-- The operand of an arithmetic operation, flushed under VEC.FTZ (R37). -/
def operandVal (c : Nat) (ftz : Bool) (bits : Nat) : Val :=
  if ftz && isSubnormal c bits then .fin (bitOf bits ((fmtP c).width - 1)) 0 0
  else decodeElem c bits

/-- An arithmetic result flushed under VEC.FTZ (R37). -/
def flushRes (c : Nat) (ftz : Bool) (r : FlagRes) : FlagRes :=
  if ftz && isSubnormal c r.1 then
    (bit01 (bitOf r.1 ((fmtP c).width - 1)) * 2 ^ ((fmtP c).width - 1), r.2 ||| fUnderflow ||| fInexact)
  else r

/-- Rounds num / den × 2^q, non-zero, to the precision. -/
def roundTo (c : Nat) (rm : RoundMode) (ftz neg : Bool) (num den : Nat) (q : Int) : FlagRes :=
  let r := convertRat c rm false neg num den q 0
  flushRes c ftz (r.bits, r.flags)

/-- A signed zero or a finite exact value as a result. -/
def finRes (c : Nat) (rm : RoundMode) (ftz neg : Bool) (m : Nat) (e : Int) : FlagRes :=
  if m = 0 then (encodeFin c neg 0 0, 0) else roundTo c rm ftz neg m 1 e

/-- The NaN result of an operation whose operands hold a NaN: invalid for a signalling one (R36). -/
def nanRes (c : Nat) (ops : List Nat) : FlagRes :=
  (qNan c, if ops.any (isSignalling c) then fInvalid else 0)

def invalidRes (c : Nat) : FlagRes := (qNan c, fInvalid)

/-- The exact sum of two finite values as sign, magnitude and exponent; an exact zero from operands
of unequal sign is −0 under RD only. -/
def addFin (rm : RoundMode) (an : Bool) (am : Nat) (ae : Int) (bn : Bool) (bm : Nat) (be : Int) :
    Bool × Nat × Int :=
  let e := min ae be
  let sa : Int := (am * 2 ^ (ae - e).toNat : Nat)
  let sb : Int := (bm * 2 ^ (be - e).toNat : Nat)
  let s := (if an then -sa else sa) + (if bn then -sb else sb)
  if s = 0 then (if an = bn then an else decide (rm = .rd), 0, 0)
  else (decide (s < 0), s.natAbs, e)

def fAdd (c : Nat) (rm : RoundMode) (ftz : Bool) (a b : Nat) : FlagRes :=
  match operandVal c ftz a, operandVal c ftz b with
  | .nan, _ => nanRes c [a, b]
  | _, .nan => nanRes c [a, b]
  | .inf s, .inf t => if s = t then (encodeInf c s, 0) else invalidRes c
  | .inf s, .fin _ _ _ => (encodeInf c s, 0)
  | .fin _ _ _, .inf t => (encodeInf c t, 0)
  | .fin s m e, .fin t n f =>
    let r := addFin rm s m e t n f
    finRes c rm ftz r.1 r.2.1 r.2.2

/-- The pattern with its sign bit inverted (VNEG, R36). -/
def fNeg (c bits : Nat) : Nat :=
  let w := (fmtP c).width
  if bitOf bits (w - 1) then bits - 2 ^ (w - 1) else bits + 2 ^ (w - 1)

/-- The pattern with its sign bit cleared (VABS, R36). -/
def fAbs (c bits : Nat) : Nat := bits % 2 ^ ((fmtP c).width - 1)

/-- The pattern of `a` with the sign bit of `b` (VCOPYSIGN, R36). -/
def fCopySign (c a b : Nat) : Nat :=
  let w := (fmtP c).width
  fAbs c a + bit01 (bitOf b (w - 1)) * 2 ^ (w - 1)

/-- a − b. A NaN operand keeps its kind under negation, so the signalling test stands. -/
def fSub (c : Nat) (rm : RoundMode) (ftz : Bool) (a b : Nat) : FlagRes := fAdd c rm ftz a (fNeg c b)

def fMul (c : Nat) (rm : RoundMode) (ftz : Bool) (a b : Nat) : FlagRes :=
  match operandVal c ftz a, operandVal c ftz b with
  | .nan, _ => nanRes c [a, b]
  | _, .nan => nanRes c [a, b]
  | x, y => match Val.mul x y with
    | .nan => invalidRes c
    | .inf s => (encodeInf c s, 0)
    | .fin s m e => finRes c rm ftz s m e

/-- a × b + d, rounded once (R36: 0 × ∞ raises invalid even with a quiet NaN addend). -/
def fFma (c : Nat) (rm : RoundMode) (ftz : Bool) (a b d : Nat) : FlagRes :=
  let x := operandVal c ftz a
  let y := operandVal c ftz b
  let z := operandVal c ftz d
  if x.isNan || y.isNan then nanRes c [a, b, d]
  else match Val.mul x y, z with
    | .nan, _ => invalidRes c
    | _, .nan => nanRes c [a, b, d]
    | .inf s, .inf t => if s = t then (encodeInf c s, 0) else invalidRes c
    | .inf s, .fin _ _ _ => (encodeInf c s, 0)
    | .fin _ _ _, .inf t => (encodeInf c t, 0)
    | .fin s m e, .fin t n f =>
      let r := addFin rm s m e t n f
      finRes c rm ftz r.1 r.2.1 r.2.2

def fDiv (c : Nat) (rm : RoundMode) (ftz : Bool) (a b : Nat) : FlagRes :=
  match operandVal c ftz a, operandVal c ftz b with
  | .nan, _ => nanRes c [a, b]
  | _, .nan => nanRes c [a, b]
  | .inf _, .inf _ => invalidRes c
  | .inf s, .fin t _ _ => (encodeInf c (s != t), 0)
  | .fin s _ _, .inf t => (encodeFin c (s != t) 0 0, 0)
  | .fin s m e, .fin t n f =>
    if n = 0 then (if m = 0 then invalidRes c else (encodeInf c (s != t), fDivZero))
    else if m = 0 then (encodeFin c (s != t) 0 0, 0)
    else roundTo c rm ftz (s != t) m n (e - f)

/-- Square root of m × 2^e, m > 0, as (number, exponent): the root cut to 140 bits or more with a
last bit that says whether it was cut. -/
def sqrtCut (m : Nat) (e : Int) : Nat × Int :=
  let odd := e % 2 ≠ 0
  let m1 := (if odd then 2 * m else m) * 2 ^ 280
  let e1 := if odd then e - 1 else e
  let r := isqrt m1
  (2 * r + bit01 (r * r != m1), e1 / 2 - 141)

def fSqrt (c : Nat) (rm : RoundMode) (ftz : Bool) (a : Nat) : FlagRes :=
  match operandVal c ftz a with
  | .nan => nanRes c [a]
  | .inf s => if s then invalidRes c else (encodeInf c false, 0)
  | .fin s m e =>
    if m = 0 then (encodeFin c s 0 0, 0)
    else if s then invalidRes c
    else let r := sqrtCut m e; roundTo c rm ftz false r.1 1 r.2

/-- rcp of R113. -/
def fRcp (c : Nat) (rm : RoundMode) (ftz : Bool) (a : Nat) : FlagRes :=
  match operandVal c ftz a with
  | .nan => nanRes c [a]
  | .inf s => (encodeFin c s 0 0, 0)
  | .fin s m e =>
    if m = 0 then (encodeInf c s, fDivZero) else roundTo c rm ftz s 1 m (-e)

/-- rsqrt of R113. -/
def fRsqrt (c : Nat) (rm : RoundMode) (ftz : Bool) (a : Nat) : FlagRes :=
  match operandVal c ftz a with
  | .nan => nanRes c [a]
  | .inf s => if s then invalidRes c else (encodeFin c false 0 0, 0)
  | .fin s m e =>
    if m = 0 then (encodeInf c s, fDivZero)
    else if s then invalidRes c
    else
      let odd := e % 2 ≠ 0
      let m1 := if odd then 2 * m else m
      let e1 := if odd then e - 1 else e
      let top := 2 ^ 500
      let r := isqrt (top / m1)
      let exact := r * r * m1 == top
      roundTo c rm ftz false (2 * r + bit01 (!exact)) 1 (-(e1 / 2) - 251)

/-- Whether a < b for patterns that are not NaN, with −0 < +0 (IEEE 754-2019 minimum). -/
def totalLt (c a b : Nat) : Bool :=
  let x := decodeElem c a
  let y := decodeElem c b
  if x.isZero && y.isZero then bitOf a ((fmtP c).width - 1) && !bitOf b ((fmtP c).width - 1)
  else x.le y && !y.le x

def isNanBits (c a : Nat) : Bool := (decodeElem c a).isNan

/-- minimum and maximum (VMIN, VMAX); `mx` selects the maximum. -/
def fMinMax (c : Nat) (mx : Bool) (a b : Nat) : FlagRes :=
  if isNanBits c a || isNanBits c b then nanRes c [a, b]
  else (if (if mx then totalLt c a b else totalLt c b a) then b else a, 0)

/-- minimumNumber and maximumNumber (R36). -/
def fMinMaxNum (c : Nat) (mx : Bool) (a b : Nat) : FlagRes :=
  let fl : BitVec 5 := if isSignalling c a || isSignalling c b then fInvalid else 0
  if isNanBits c a && isNanBits c b then (qNan c, fl)
  else if isNanBits c a then (b, fl)
  else if isNanBits c b then (a, fl)
  else (if (if mx then totalLt c a b else totalLt c b a) then b else a, 0)

/-- Quiet compare (VCMP). -/
def fCmp (c : Nat) (cond : Cond) (a b : Nat) : Bool × BitVec 5 :=
  let x := decodeElem c a
  let y := decodeElem c b
  let un := x.isNan || y.isNan
  let r := match cond with
    | .eq => x.le y && y.le x
    | .ne => !(x.le y && y.le x)
    | .lt => x.le y && !y.le x
    | .le => x.le y
    | .un => un
  (r, if isSignalling c a || isSignalling c b then fInvalid else 0)

end Sys2Proof.Machine
end

