-- ==== Sys2Proof/Machine/Matrix.lean ====
section
/-!
DEFINITION. The M queue: MATMUL (04 R77 to R105, R567) with the anchor replay of R60 and S5-order rows of
R74, and SPAN_CLOSE (08 R191).
-/

namespace Sys2Proof.Machine

/-- K positions per cycle (R77). -/
def kPerCycle (w : Nat) : Nat := 16 / w

/-- The alignment and range of k-lines or scale lines (R79, R80). -/
def planeOk (addr : Int) (stride : Int) (size count : Nat) : Bool :=
  decide (0 ≤ addr) && decide (addr % size = 0) && decide (0 < stride) && decide (stride % size = 0)
    && (count == 0 || decide (addr + ((count : Int) - 1) * stride + size ≤ benchSize))

/-- One operand of a pass (R79, R80). -/
structure MatOp where
  addr : Nat
  stride : Nat
  panel : Nat
  saddr : Nat
  sstride : Nat
  deriving DecidableEq, Repr

/-- The checks of one operand. -/
def matOperandOf (fmt kc : Nat) (addr stride : Int) (panel : Nat) (saddr sstride : Int) : Except Stop MatOp :=
  let w := fmtWidth fmt
  if panel ≠ 0 ∧ !fmtPanelOk fmt then failCls matOperand
  else if !planeOk addr stride (4 * w) kc then failCls matOperand
  else if panel = 1 ∧ !planeOk saddr sstride 32 ((kc + 31) / 32) then failCls matOperand
  else if panel = 2 ∧ !planeOk saddr sstride 1 kc then failCls matOperand
  else .ok ⟨addr.toNat, stride.toNat, panel, saddr.toNat, sstride.toNat⟩

/-- Bench ranges that k-line `k` and its scales take. -/
def klineRanges (w k : Nat) (o : MatOp) : List (Nat × Nat) :=
  (o.addr + k * o.stride, 4 * w) ::
    (if o.panel = 1 then [(o.saddr + k / 32 * o.sstride, 32)]
     else if o.panel = 2 then [(o.saddr + k * o.sstride, 1)] else [])

/-- The first `n` elements of k-line `k` with their scales. -/
def klineVals (d : Dev) (core fmt k n : Nat) (o : MatOp) : List Val :=
  let w := fmtWidth fmt
  let x := benchLe d core (o.addr + k * o.stride) (4 * w)
  (List.range n).map (fun i =>
    let v := decodeElem fmt (bitsOf x (w * i + w - 1) (w * i))
    if o.panel = 1 then scaleVal (benchLe d core (o.saddr + k / 32 * o.sstride + i) 1) v
    else if o.panel = 2 then scaleVal (benchLe d core (o.saddr + k * o.sstride) 1) v
    else v)

/-! ### One pass of a tile -/

/-- The definition that a pass works under. -/
structure PassDef where
  path : Nat
  k : Nat
  w : Int
  /-- Whether the anchor test of R59 runs. -/
  test : Bool
  deriving DecidableEq, Repr

/-- A pass on its way: rows, largest exponent, whether the anchor overflowed, and the lane that tripped the
span-range check. -/
structure PassSt where
  rows : List JRow
  eobs : Int
  exceeded : Bool
  trip : Option (Nat × Nat)
  deriving DecidableEq, Repr

/-- The span-range limit of R99; S5-order rows have none. -/
def rangeOk (p : PassDef) (i : Int) : Bool :=
  if p.path = 3 then true
  else decide (i.natAbs ≤ (if p.path = 2 then 2 ^ 58 else 2 ^ (p.w - 2).toNat))

/-- One product enters a span word under the anchor of its row (R47, R50, R78): the row, and whether the word stays in
range. -/
def enterTerm (p : PassDef) (r : JRow) (j : Nat) (x : Val) : JRow × Bool :=
  match x with
  | .fin _ _ _ =>
    let i := rowWord r j + enterFloor r.anchor x
    (rowPut r j i, rangeOk p i)
  | _ => (rowStick r j (stickyOf x), true)

/-- The products of one cycle enter one row, column by column, in K order. -/
def enterRow (p : PassDef) (i : Nat) (r : JRow) (prods : List (Nat × Val)) : JRow × Option (Nat × Nat) :=
  prods.foldl (fun (a : JRow × Option (Nat × Nat)) (x : Nat × Val) =>
    if a.2.isSome then a
    else
      let y := enterTerm p a.1 x.1 x.2
      (y.1, if y.2 then none else some (i, x.1))) (r, none)

/-- One cycle: EOBS first, then the products if the anchor still fits (R59, R60). -/
def passCycle (p : PassDef) (ks : List (List Val × List Val)) (s : PassSt) : PassSt :=
  if s.trip.isSome then s
  else
    let prods := fun i : Nat => ks.flatMap (fun (ab : List Val × List Val) =>
      let a := ab.1.getD i .nan
      ((List.range ab.2.length).zip ab.2).map (fun (jb : Nat × Val) => (jb.1, Val.mul a jb.2)))
    let m := ((ks.map (fun ab => ab.1.length)).headD 0)
    let all := (List.range m).map prods
    let eobs := all.foldl (fun e l => l.foldl (fun e x => maxExp e (termExp x.2)) e) s.eobs
    let exceeded := s.exceeded || (p.test && s.rows.any (fun r => !anchorFits eobs p.k r.anchor p.w))
    if exceeded then { s with eobs := eobs, exceeded := exceeded }
    else
      let done := ((List.range s.rows.length).zip s.rows).map (fun (ir : Nat × JRow) =>
        if ir.1 < m then enterRow p ir.1 ir.2 (all.getD ir.1 []) else (ir.2, none))
      { rows := done.map (·.1), eobs := eobs, exceeded := exceeded,
        trip := (done.filterMap (·.2)).head? }

/-- A pass over the K positions' values. -/
def runPass (p : PassDef) (perCycle : Nat) (vals : List (List Val × List Val)) (s : PassSt) : PassSt :=
  (chunksOf vals.length perCycle vals).foldl (fun s ks => passCycle p ks s) s

/-! ### S5-order rows (R74) -/

/-- One level of the pairwise tree. -/
def pairSums : List Nat → List Nat
  | a :: b :: l => (fAdd 7 .rne false a b).1 :: pairSums l
  | l => l

/-- The sum of a group of 32 binary32 products, +0 beyond its end. -/
def s5Group (l : List Nat) : Nat :=
  (pairSums (pairSums (pairSums (pairSums (pairSums (l ++ List.replicate (32 - l.length) 0)))))).headD 0

/-- One lane: whole groups of 32 are added to the accumulator in order; what a group holds so far stays open. -/
def s5Add : Nat → List Nat → Nat → Nat × List Nat
  | 0, ps, acc => (acc, ps)
  | fuel + 1, ps, acc =>
    if ps.length < 32 then (acc, ps)
    else s5Add fuel (ps.drop 32) (fAdd 7 .rne false acc (s5Group (ps.take 32))).1

/-- The accumulator with its open group taken as the share's last, padded with +0. -/
def s5Value (x : Nat × List Nat) : Nat := if x.2 = [] then x.1 else (fAdd 7 .rne false x.1 (s5Group x.2)).1

/-- The accumulator before the open group of span word `j` of a row, and that group's products. Groups count from the
share's start (R74 step 3), that is from JOIST.COUNT 0: the group is open where the count is no multiple of 32. -/
def s5Open (r : JRow) (j : Nat) : Nat × List Nat :=
  match r.group.getD j [] with
  | acc :: ps => (acc.toNat, ps.map (·.toNat))
  | [] => ((rowWord r j).toNat % 2 ^ 32, [])

/-- Span word `j` of a row with its accumulator and open group replaced. -/
def s5Put (r : JRow) (j : Nat) (x : Nat × List Nat) : JRow :=
  { rowPut r j (s5Value x) with
    group := r.group.set j (if x.2 = [] then [] else (x.1 :: x.2).map (BitVec.ofNat 32)) }

/-- The products of a lane, each rounded to binary32, enter it. -/
def s5Lane (r : JRow) (j : Nat) (prods : List Val) : JRow :=
  let x := s5Open r j
  let ps := x.2 ++ prods.map (fun v => (convert 7 .rne false 0 false v).bits)
  s5Put r j (s5Add ps.length ps x.1)

/-- A pass on S5-order rows. -/
def s5Pass (m n : Nat) (vals : List (List Val × List Val)) (rows : List JRow) : List JRow :=
  ((List.range rows.length).zip rows).map (fun (ir : Nat × JRow) =>
    if m ≤ ir.1 then ir.2
    else
      let r := if ir.2.group = [] then { ir.2 with group := List.replicate 32 [] } else ir.2
      let r := (List.range n).foldl (fun r j =>
        s5Lane r j (vals.map (fun ab => Val.mul (ab.1.getD ir.1 .nan) (ab.2.getD j .nan)))) r
      if r.group.all (· == []) then { r with group := [] } else r)

/-- Whether a row's open group is lost: its count ends within a group that a raw move or a restore did not bring
(R73). -/
def s5Lost (r : JRow) : Bool := r.s5 && r.count % 32 != 0 && r.group == []

/-! ### MATMUL -/

/-- A row as OPEN leaves it (R82, R85, R192). -/
def openRow (slot path : Nat) (anchor : Int) (f : MatmulF) : JRow :=
  { valid := true, rslot := slot, anchor := if path = 3 then noExp else anchor, eobs := noExp,
    int := path == 2, s5 := path == 3, sister := f.sister, redone := f.redoOnly,
    shape := (f.mSize, f.nSize) }

/-- The 32 rows of a block in a tile. -/
def blockRows (d : Dev) (core jb : Nat) : List JRow := (List.range 32).map (fun i => jrow d core (jb + i))

def putRows (core jb : Nat) (rows : List JRow) (d : Dev) : Dev :=
  ((List.range rows.length).zip rows).foldl (fun d (ir : Nat × JRow) => setJrow core (jb + ir.1) ir.2 d) d

/-- ERR.ADDR of a tile's row and column (R483). -/
def tileAddr (tile row col : Nat) : Nat := packFields [(tile, 2), (row, 8), (col, 5)]

/-- The first column in which two copies of a row differ (R102). -/
def rowDiffer (r o : JRow) : Option Nat :=
  match (List.range 32).find? (fun j => rowWord r j != rowWord o j || rowSticky r j != rowSticky o j) with
  | some j => some j
  | none => if (r.eobs, r.count, r.anchor) = (o.eobs, o.count, o.anchor) then none else some 0

/-- The first row and column in which two copies of a block differ. -/
def blockDiffer (a b : List JRow) : Option (Nat × Nat) :=
  ((List.range a.length).zip (a.zip b)).findSome? (fun (x : Nat × (JRow × JRow)) =>
    (rowDiffer x.2.1 x.2.2).map (fun c => (x.1, c)))

/-- Rows whose earlier passes used another M_SIZE or N_SIZE hold undefined data (R83), and so do S5-order rows whose open
group is lost (log entry 21). -/
def shapeRows (f : MatmulF) (rows : List JRow) (d : Dev) : List JRow × Dev :=
  if rows.all (fun r => (r.shape == (0, 0) || r.shape == (f.mSize, f.nSize)) && !s5Lost r) then (rows, d)
  else
    rows.foldr (fun r (a : List JRow × Dev) =>
      let x := drawNat a.2
      ({ r with words := (List.range 32).map (fun j => BitVec.ofNat 128 (x.1 / 2 ^ (128 * j))) } :: a.1, x.2))
      ([], d)

/-- What the pass leaves on one copy of the rows, before the tags' write-back. -/
def tilePass (p : PassDef) (f : MatmulF) (vals : List (List Val × List Val)) (rows : List JRow) : PassSt :=
  let seen := rows.foldl (fun e r => maxExp e r.eobs) noExp
  let s : PassSt := ⟨rows, seen, rows.any (·.redo), none⟩
  if p.path = 3 then { s with rows := s5Pass f.mSize f.nSize vals rows }
  else runPass p (kPerCycle (fmtWidth f.fmt)) vals s

/-- The write-back of a pass's tags (R85, R60, R192). -/
def writeBack (f : MatmulF) (s : PassSt) : List JRow :=
  s.rows.map (fun r =>
    { r with
      count := (r.count + f.kc) % 2 ^ 44
      eobs := s.eobs
      redo := r.redo || s.exceeded
      mixed := r.mixed || (!f.openRows && r.sister != f.sister)
      sister := f.sister
      shape := (f.mSize, f.nSize) })

/-- A pass with the anchor replay of R60 for a command that opened the rows; none where no anchor fits. -/
def passReplay (r : Red) (p : PassDef) (f : MatmulF) (vals : List (List Val × List Val)) (rows : List JRow) :
    Option PassSt :=
  let s := tilePass p f vals rows
  if f.openRows && s.exceeded then
    match firstFit r.l0 s.eobs r.k r.w with
    | none => none
    | some l =>
      let rows := rows.map (fun _ => openRow f.rslot r.path l f)
      some (tilePass { p with test := false } f vals rows)
  else some s

/-- Both tiles of a sister pair, or the one tile (R101). -/
def passTiles (f : MatmulF) : List Nat :=
  if f.sister then [f.joistBase, f.joistBase + 256] else [f.joistBase]

/-- MAT_SISTER of the pair of an even tile (R101, R102): the record names it in ERR.ADDR, and its other tile in the first
bits of ERR.DETAIL that R483 leaves free (DESIGN CHOICE, log entry 21). A plausibility trip is reported after it. -/
def sisterFail {α : Type} (tile row col : Nat) (trip : Option (Nat × Nat)) (d : Dev) : Except Stop α :=
  .error (.err { cls := matSister, addr := tileAddr tile row col, hi := tile + 1, dev := some d, after := trip })

/-- The pass of a MATMUL on its rows. -/
def matmulPass (f : MatmulF) (a b : MatOp) (r : Red) (p : PassDef) (j : Job) : Except Stop Job :=
  let w := fmtWidth f.fmt
  let dsts := (passTiles f).map (fun jb => Region.rows jb 32)
  let ranges := (List.range f.kc).flatMap (fun k => klineRanges w k a ++ klineRanges w k b)
  let j := { j with reads := ranges ++ j.reads, dsts := dsts ++ j.dsts }
  match ranges.find? (fun x => benchPoisoned j.d j.core x.1 x.2) with
  | some x => .error (.err { cls := poisonCls, addr := x.1, dsts := dsts, pois := dsts, dev := some j.d })
  | none =>
    let vals := (List.range f.kc).map (fun k =>
      (klineVals j.d j.core f.fmt k f.mSize a, klineVals j.d j.core f.fmt k f.nSize b))
    let copies := (passTiles f).map (fun jb => (jb, passReplay r p f vals (blockRows j.d j.core jb)))
    match copies.find? (fun c => c.2.isNone) with
    | some _ => failRedAt spanAnchorRange f.rslot j.d
    | none =>
      let done := copies.filterMap (fun c => c.2.map (fun s => (c.1, s)))
      let fin := done.map (fun c => (c.1, writeBack f c.2))
      let d := fin.foldl (fun d c => putRows j.core c.1 c.2 d) j.d
      let tile := f.joistBase / 256
      let differ := match fin with
        | [x, y] => blockDiffer x.2 y.2
        | _ => none
      match differ, done.findSome? (fun c => c.2.trip.map (fun t => (c.1 / 256, t))) with
      | some x, t => sisterFail tile (f.joistBase % 256 + x.1) x.2
          (t.map (fun y => (matRange, tileAddr y.1 (f.joistBase % 256 + y.2.1) y.2.2))) d
      | none, some y =>
        .error (.err { cls := matRange, addr := tileAddr y.1 (f.joistBase % 256 + y.2.1) y.2.2, dev := some d })
      | none, none => .ok { j with d := d }

/-- Whether a REDO_ONLY command runs (R62). -/
def redoRuns (f : MatmulF) (r : Red) (rows : List JRow) : Bool :=
  if f.openRows then rows.any (fun x => x.anchor != r.l || x.redo) else rows.any (·.redone)

/-- Whether a command of another queue in flight writes a row: an EPILOGUE that releases it. A MATMUL on such a row meets
undefined data, no SPAN_SLOT (R104). -/
def beingReleased (j : Job) (row : Nat) : Bool :=
  (otherFlights j.d j.ctx j.core j.q).any (fun p =>
    p.1 / 4 == j.core && meetParts true false [Region.rows row 1] p.2.dsts != [])

/-- The rows of a MATMUL: opened, or checked (R85, R105, R234). -/
def matmulRows (f : MatmulF) (r : Red) (anchor : Int) (j : Job) : Except Stop Job :=
  if f.openRows then
    let row := openRow f.rslot r.path anchor f
    .ok { j with d := (passTiles f).foldl (fun d jb => putRows j.core jb (List.replicate 32 row) d) j.d }
  else
    let all := (passTiles f).flatMap (fun jb => ((List.range 32).map (fun i => (jb + i, jrow j.d j.core (jb + i)))))
    if all.any (fun x => (!x.2.valid && !beingReleased j x.1) || x.2.rslot != f.rslot) then failRedAt spanSlot f.rslot j.d
    else
      match all.find? (fun x => x.2.poison) with
      | some x => failAddr poisonCls x.1
      | none =>
        let d := (passTiles f).foldl (fun d jb =>
          let x := shapeRows f (blockRows d j.core jb) d
          putRows j.core jb x.1 x.2) j.d
        .ok { j with d := d }

/-- Whether each of a MATMUL's tiles can take it: a tile runs one MATMUL and queues one (R91, R174). -/
def tilesFree (f : MatmulF) (j : Job) : Bool :=
  ((passTiles f).map (· / 256)).all (fun t =>
    decide (((queueAt j.d j.core 1).inflight.filter (fun x => x.tiles.contains t)).length < 2))

/-- Whether a MATMUL may add to a reduction (R53, R57, R76, R85). Log entry 39: the reduction must be open. -/
def matmulCheck (f : MatmulF) (r : Red) (d : Dev) : Except Stop Unit :=
  if !r.isOpen then failRedAt spanSlot f.rslot d
  else if r.fmt ≠ f.fmt ∨ r.single ∨ (r.path ≠ 0 ∧ (f.aPanel ≠ 0 ∨ f.bPanel ≠ 0)) then failRedAt spanMismatch f.rslot d
  else if r.path = 0 ∧ !r.resolved then failRedAt spanUnresolved f.rslot d
  else .ok ()

/-- The work of a MATMUL that runs. -/
def matmulRun (f : MatmulF) (a b : MatOp) (r : Red) (j : Job) : Except Stop Job :=
  match matmulRows f r (if r.path = 1 ∧ !r.resolved then r.l0 else r.l) j with
  | .error e => .error e
  | .ok j =>
    let rows := (passTiles f).map (fun jb => Region.rows jb 32)
    let j := { j with rds := if f.openRows then j.rds else rows ++ j.rds, tiles := (passTiles f).map (· / 256) }
    if f.kc = 0 then .ok { j with dsts := rows }
    else matmulPass f a b r ⟨r.path, r.k, r.w, r.path == 1⟩ j

/-- MATMUL's work. One with KC = 0 and no OPEN, or whose REDO_ONLY predicate keeps it from running, is empty: it reads
nothing and fails no check of R85 (R62, R84, R186). -/
def matmulBody (f : MatmulF) (j : Job) : Except Stop Job :=
  if !fmtKnown f.fmt ∨ 2 < f.aPanel ∨ 2 < f.bPanel ∨ f.mSize < 1 ∨ 32 < f.mSize ∨ f.nSize < 1 ∨ 32 < f.nSize
      ∨ 65536 < f.kc ∨ 1023 < f.joistBase ∨ 1023 < f.rslot then failCls cmdDecode
  else if !fmtMatrix f.fmt ∨ f.fmtB ≠ f.fmt then failCls matOperand
  else if f.joistBase % 32 ≠ 0 ∨ (f.sister ∧ f.joistBase / 256 % 2 = 1) then failCls matOperand
  else
    let sv := steppedVal j.loops
    match matOperandOf f.fmt f.kc (sv f.aAddr) f.aStride f.aPanel (sv f.aScale) f.aScaleStride with
    | .error e => .error e
    | .ok a =>
      match matOperandOf f.fmt f.kc (sv f.bAddr) f.bStride f.bPanel (sv f.bScale) f.bScaleStride with
      | .error e => .error e
      | .ok b =>
        let rows := blockRows j.d j.core f.joistBase
        if !tilesFree f j then .error .wait
        else if !f.openRows && (f.kc == 0 || (f.redoOnly && !rows.any (·.redone))) then .ok j
        else
          match redLoad j.unit j.ctx f.rslot j.d with
          | .error e => .error e
          | .ok (r, d) =>
            match matmulCheck f r d with
            | .error e => .error e
            | .ok _ =>
              if f.redoOnly && !redoRuns f r rows then .ok { j with d := d }
              else matmulRun f a b r { j with d := d }

/-- MATMUL (R82 to R105). -/
def execMatmul (q : QCmd) (f : MatmulF) (s : State) : Host.Outcome State Fault Refusal :=
  onDev (coreKnown q.core) (runCmd q [1] true false [] [] (matmulBody f)) s

/-! ### SPAN_CLOSE -/

/-- The rows of a share as span records, one word standing for its row (R191). -/
def shareRows (joistBase blocks : Nat) (j : Job) : List (Nat × JRow) :=
  (List.range (32 * blocks)).map (fun i => (joistBase + i, jrow j.d j.core (joistBase + i)))

/-- A share's words, the state, and the address of a poisoned one. -/
def readShare (share : Share) (j : Job) : Except Stop (List SpanRec × Option Nat × Job) :=
  match share with
  | .rows jb n =>
    if 1023 < jb ∨ n < 1 ∨ 8 < n then failCls cmdDecode
    else if jb % 32 ≠ 0 then failCls matOperand
    else if 256 < jb % 256 + 32 * n then failCls cmdOperand
    else
      let rs := shareRows jb n j
      .ok (rs.map (fun x => { rowSpan x.2 0 with sticky := rowStickyAll x.2 }), (rs.find? (fun x => x.2.poison)).map (·.1),
        { j with rds := Region.rows jb (32 * n) :: j.rds })
  | .records a n =>
    if n < 1 ∨ 65536 < n then failCls cmdDecode
    else
      let base := steppedVal j.loops a
      match readSpans base n j with
      | .error e => .error e
      | .ok (rs, j) =>
        .ok (rs.map (·.1), (((List.range n).zip rs).find? (fun x => x.2.2)).map (fun x => base.toNat + 32 * x.1), j)

/-- SPAN_CLOSE's work: one post for the whole share (R191). -/
def spanCloseBody (rslot : Nat) (share : Share) (j : Job) : Except Stop Job :=
  if 1023 < rslot then failCls cmdDecode
  else
    match readShare share j with
    | .error e => .error e
    | .ok (_, some a, _) => failAddr poisonCls a
    | .ok (rs, none, j) =>
      let r0 := rs.headD {}
      if rs.any (fun r => !r.valid || r.rslot != rslot) then failRedAt spanSlot rslot j.d
      else if rs.any (fun r => r.count != r0.count) then failRedAt spanMismatch rslot j.d
      else
        match closePost j.unit j.ctx rslot j.core (postOf r0 rs) j.d with
        | .error e => .error e
        | .ok d => .ok { j with d := d, atom := true }

/-- SPAN_CLOSE (R61, R191, R267). -/
def execSpanClose (q : QCmd) (rslot : Nat) (share : Share) (s : State) : Host.Outcome State Fault Refusal :=
  onDev (coreKnown q.core) (runCmd q [1] true false [] [] (spanCloseBody rslot share)) s

end Sys2Proof.Machine
end

