-- ==== Sys2Proof/Machine/DeckOps.lean ====
section
/-!
DEFINITION. The deck's atomic operations on a line (11 R263 to R266, R246), shared by ATOMIC, SCATTER,
SPAN_ADD, glue-ups and remote requests.
-/

namespace Sys2Proof.Machine

/-- Whether value and index pair (x, i) beats pair (y, k) (R69): NaN wins, then the larger or smaller
value, then the lowest index. -/
def beats (big : Bool) (x : Val) (i : Int) (y : Val) (k : Int) : Bool :=
  if x.isNan || y.isNan then (if x.isNan && y.isNan then decide (i < k) else x.isNan)
  else if Val.le x y && Val.le y x then decide (i < k)
  else if big then Val.le y x else Val.le x y

/-- The winner of two 64-bit pairs (R126). -/
def pairWin (big : Bool) (t v : Nat) : Nat :=
  if beats big (decodeElem 7 (v % 2 ^ 32)) (ofTwos 32 (v / 2 ^ 32)) (decodeElem 7 (t % 2 ^ 32)) (ofTwos 32 (t / 2 ^ 32))
  then v else t

/-- The new value of an integer or pair operation of `w` bytes (R263): target t, operand v, compare c. -/
def atomicNew (op : AtomicOp) (w t v c : Nat) : Nat :=
  let m := 2 ^ (8 * w)
  match op with
  | .iadd => (t + v) % m
  | .iadds => min (t + v) (m - 1)
  | .ior => t ||| v
  | .iandn => t - (t &&& v)
  | .swap => v
  | .cas => if t = c then v else t
  | .maxi => pairWin true t v
  | .mini => pairWin false t v
  | _ => t

/-- Widths that an operation allows (R263). -/
def atomicWidths : AtomicOp → List Nat
  | .ld => [4, 8, 16, 32, 64]
  | .st => [64]
  | .iadd | .iadds | .ior | .iandn => [4, 8]
  | .swap | .cas => [4, 8, 16]
  | .maxi | .mini => [8]
  | .sadd | .sinit => [32]

/-- Why a deck operation fails. -/
inductive DeckFail where
  | operand
  | slot
  | mismatch
  | poison
  deriving DecidableEq, Repr

/-- One operation with its operands. An SADD's operand is a span record, an SINIT's the record to write. -/
structure DeckOp where
  op : AtomicOp
  width : Nat
  opnd : Nat := 0
  cmp : Nat := 0
  bmask : Nat := 0
  deriving DecidableEq, Repr

/-- Bytes that a mask selects replaced (R263, ST). -/
def maskBytes : Nat → List Byte → List Byte → List Byte
  | mask, b :: bs, n :: ns => (if mask % 2 = 1 then n else b) :: maskBytes (mask / 2) bs ns
  | _, bs, _ => bs

/-- An SADD into a target record (R265): the record, and whether the 128-bit sum overflowed. -/
def saddRec (t x : SpanRec) : Except DeckFail (SpanRec × Bool) :=
  if !t.valid then .error .slot
  else if t.rslot ≠ x.rslot ∨ t.anchor ≠ x.anchor then .error .mismatch
  else
    let s := t.i + x.i
    .ok ({ t with
      i := s
      sticky := t.sticky.or x.sticky
      count := (t.count + x.count) % 2 ^ 44
      eobs := maxExp t.eobs x.eobs }, decide (s < -(2 : Int) ^ 127) || decide ((2 : Int) ^ 127 ≤ s))

/-- An operation at byte `off` of a line: the old value, the line after it, and an overflow of R265. -/
def lineAct (a : DeckOp) (off : Nat) (line : List Byte) : Except DeckFail (Nat × List Byte × Bool) :=
  if a.width = 0 ∨ off % a.width ≠ 0 ∨ 64 < off + a.width then .error .operand
  else
    let t := leAt line off a.width
    match a.op with
    | .ld => .ok (t, line, false)
    | .st => .ok (0, maskBytes a.bmask line (leBytes 64 a.opnd), false)
    | .sinit => .ok (0, putLe line off 32 a.opnd, false)
    | .sadd =>
      (match saddRec (parseSpan (leBytes 32 t)) (parseSpan (leBytes 32 a.opnd)) with
       | .error e => .error e
       | .ok (r, ovf) => .ok (0, putLe line off 32 (ofLe (packSpan r)), ovf))
    | _ => .ok (t, putLe line off a.width (atomicNew a.op a.width t a.opnd a.cmp), false)

/-- DECK_SPAN: the record's line is poisoned and the operation completes (R265). -/
def spanOverflow (ctx : Nat) (host : Bool) (line slot : Nat) (d : Dev) : Dev :=
  poisonLine host line (raise deckSpan (unitCluster (homeDeck d.hbmc host line)) (some ctx) line slot d)

/-- An operation at a physical address, served by the line's home deck: the old value. A poisoned line fails
it and stays poisoned (R246). -/
def deckAct (ctx : Nat) (host : Bool) (pa : Nat) (a : DeckOp) (d : Dev) : Except DeckFail (Nat × Dev) :=
  let line := lineOf pa
  if linePoisoned d host line then .error .poison
  else
    match lineAct a (pa % 64) (readMem d host line 64) with
    | .error e => .error e
    | .ok (old, bs, ovf) =>
      let d := if a.op = .ld then d else writeMem host line bs d
      .ok (old, if ovf then spanOverflow ctx host line (parseSpan (leBytes 32 a.opnd)).rslot d else d)

/-- An operation at a device-virtual address: the old value, the region it wrote, and the state. The inner
result is the deck's answer. -/
def vAct (u ctx : Nat) (va : Int) (a : DeckOp) (d : Dev) : Except Stop (Except DeckFail (Nat × Region) × Dev) :=
  match xlate u ctx (a.op != .ld) va d with
  | .error e => .error e
  | .ok (host, pa, _, d) =>
    match deckVisit host pa a.width d with
    | .error e => .error e
    | .ok d' =>
      let d := if host then hostReadDone ctx d pa a.width d' else d'
      match deckAct ctx host pa a d with
      | .error e => .ok (.error e, d)
      | .ok (old, d) => .ok (.ok (old, Region.mem host pa a.width), d)

/-- The span record that SINIT writes for a reduction (R266), or the class with which it fails. -/
def sinitRec (slot : Nat) (r : Red) : Except Nat SpanRec :=
  if !r.resolved then .error spanUnresolved
  else if r.path = 3 then .error spanMismatch
  else .ok { anchor := r.l, valid := true, rslot := slot }

end Sys2Proof.Machine
end

