-- ==== Sys2Proof/Machine/Elementary.lean ====
section
/-!
DEFINITION. exp2 and log2, rounded once (05 R113), and the reference functions (05 R116, R117, R563).
Irrational values are computed in 320-bit fixed point and carry one last bit that marks them inexact.
-/

namespace Sys2Proof.Machine

/-- Bits of the fixed point. -/
def fixBits : Nat := 320

/-- Σ t^(2j+1)/(2j+1), the series of atanh, from term j on; `t` and `t2 = t²` in fixed point. -/
def atanhSum : Nat → Nat → Nat → Nat → Nat → Nat
  | 0, _, _, _, acc => acc
  | fuel + 1, pw, t2, j, acc =>
    atanhSum fuel (pw * t2 / 2 ^ fixBits) t2 (j + 2) (acc + pw / j)

/-- atanh(a / b) in fixed point, for 0 ≤ a/b ≤ 1/3. -/
def atanhFix (a b : Nat) : Nat :=
  let t := a * 2 ^ fixBits / b
  atanhSum 110 t (t * t / 2 ^ fixBits) 1 0

/-- ln 2 = 2 atanh(1/3) in fixed point. -/
def ln2Fix : Nat := 2 * atanhFix 1 3

/-- Σ y^j/j! from the term `tm` on, the series of exp. -/
def expSum : Nat → Nat → Nat → Nat → Nat → Nat
  | 0, _, _, _, acc => acc
  | fuel + 1, tm, y, j, acc => expSum fuel (tm * y / 2 ^ fixBits / (j + 1)) y (j + 1) (acc + tm)

/-- 2^f in fixed point for 0 ≤ f < 1 in fixed point. -/
def exp2Fix (f : Nat) : Nat := expSum 75 (2 ^ fixBits) (f * ln2Fix / 2 ^ fixBits) 0 0

/-- exp2 of R113 in binary32. -/
def fExp2 (rm : RoundMode) (ftz : Bool) (a : Nat) : FlagRes :=
  match operandVal 7 ftz a with
  | .nan => nanRes 7 [a]
  | .inf s => if s then (encodeFin 7 false 0 0, 0) else (encodeInf 7 false, 0)
  | .fin s m e =>
    if leScaled (2 ^ 10) 0 m e then
      roundTo 7 rm ftz false 3 1 (if s then -4000 else 4000)
    else
      let sm : Int := if s then -(m : Int) else m
      let i := floorShift sm e
      let fr : Nat := if 0 ≤ e then 0 else (sm - i * (2 ^ (-e).toNat : Nat)).toNat
      if fr = 0 then roundTo 7 rm ftz false 1 1 i
      else
        let ff := fr * 2 ^ fixBits / 2 ^ (-e).toNat
        roundTo 7 rm ftz false (2 * exp2Fix ff + 1) 1 (i - (fixBits : Int) - 1)

/-- log2 of R113 in binary32. -/
def fLog2 (rm : RoundMode) (ftz : Bool) (a : Nat) : FlagRes :=
  match operandVal 7 ftz a with
  | .nan => nanRes 7 [a]
  | .inf s => if s then invalidRes 7 else (encodeInf 7 false, 0)
  | .fin s m e =>
    if m = 0 then (encodeInf 7 true, fDivZero)
    else if s then invalidRes 7
    else
      let l := Nat.log2 m
      let i : Int := (l : Int) + e
      if m = 2 ^ l then finRes 7 rm ftz (decide (i < 0)) i.natAbs 0
      else
        let fr := 2 * atanhFix (m - 2 ^ l) (m + 2 ^ l) * 2 ^ fixBits / ln2Fix
        let v : Int := i * (2 ^ fixBits : Nat) + fr
        roundTo 7 rm ftz (decide (v < 0)) (2 * v.natAbs + 1) 1 (-(fixBits : Int) - 1)

/-! ### Reference functions (R117): binary32 steps under roundTiesToEven -/

/-- A step of a composition with the flags gathered so far. -/
def refStep (fl : BitVec 5) (r : FlagRes) : FlagRes := (r.1, fl ||| r.2)

/-- exp_ref. -/
def expRef (ftz : Bool) (x : Nat) : FlagRes :=
  let lo := fMul 7 .rne ftz x 0x32A5705F
  let t := refStep lo.2 (fFma 7 .rne ftz x 0x3FB8AA3B lo.1)
  refStep t.2 (fExp2 .rne ftz t.1)

/-- log_ref. -/
def logRef (ftz : Bool) (x : Nat) : FlagRes :=
  let y := fLog2 .rne ftz x
  let lo := refStep y.2 (fMul 7 .rne ftz y.1 0xB102E308)
  refStep lo.2 (fFma 7 .rne ftz y.1 0x3F317218 lo.1)

/-- sigmoid_ref. -/
def sigmoidRef (ftz : Bool) (x : Nat) : FlagRes :=
  let u := expRef ftz (fNeg 7 x)
  let d := refStep u.2 (fAdd 7 .rne ftz 0x3F800000 u.1)
  refStep d.2 (fRcp 7 .rne ftz d.1)

/-- tanh_ref; only the branch taken raises flags (R563). A signalling NaN raises invalid, as in R39 (DEDUCED, log entry 40). -/
def tanhRef (ftz : Bool) (x : Nat) : FlagRes :=
  if isNanBits 7 x then nanRes 7 [x]
  else
    let a := fAbs 7 x
    if a < 0x3D800000 then
      let s := fMul 7 .rne ftz x x
      let p := refStep s.2 (fFma 7 .rne ftz s.1 0x3E088889 0xBEAAAAAB)
      let m := refStep p.2 (fMul 7 .rne ftz x s.1)
      let r := refStep m.2 (fFma 7 .rne ftz m.1 p.1 x)
      (fCopySign 7 r.1 x, r.2)
    else if 0x41200000 ≤ a then (fCopySign 7 0x3F800000 x, 0)
    else
      let a2 := fMul 7 .rne ftz 0xC0000000 a
      let u := refStep a2.2 (expRef ftz a2.1)
      let n := refStep u.2 (fSub 7 .rne ftz 0x3F800000 u.1)
      let d := refStep n.2 (fAdd 7 .rne ftz 0x3F800000 u.1)
      let r := refStep d.2 (fDiv 7 .rne ftz n.1 d.1)
      (fCopySign 7 r.1 x, r.2)

/-- gelu_ref. -/
def geluRef (ftz : Bool) (x : Nat) : FlagRes :=
  if x = 0xFF800000 then (0x80000000, 0)
  else
    let s := fMul 7 .rne ftz x x
    let t1 := refStep s.2 (fFma 7 .rne ftz 0x3D372713 s.1 0x3F800000)
    let t2 := refStep t1.2 (fMul 7 .rne ftz x t1.1)
    let t3 := refStep t2.2 (fMul 7 .rne ftz 0x3F4C422A t2.1)
    let h := refStep t3.2 (tanhRef ftz t3.1)
    let g := refStep h.2 (fAdd 7 .rne ftz 0x3F800000 h.1)
    let hx := refStep g.2 (fMul 7 .rne ftz 0x3F000000 x)
    refStep hx.2 (fMul 7 .rne ftz hx.1 g.1)

/-- VFUNC's function of a binary32 input (R114). -/
def refFunc (f : RefFunc) (ftz : Bool) (x : Nat) : FlagRes :=
  match f with
  | .exp => expRef ftz x
  | .log => logRef ftz x
  | .tanh => tanhRef ftz x
  | .sigmoid => sigmoidRef ftz x
  | .gelu => geluRef ftz x

end Sys2Proof.Machine
end

