-- ==== Sys2Proof/Machine/Vector.lean ====
section
/-!
DEFINITION. The commands of the V queue (05 R107 to R128, R561, R563 to R566).
-/

namespace Sys2Proof.Machine

/-! ### Sources -/

/-- How an operation reads its sources: in its precision (R561), as INT32 (R565), or exactly. -/
inductive VRead where
  | prec
  | int
  | exact
  deriving DecidableEq, Repr

/-- One element of a source: its pattern in the command's precision (or 32-bit integer pattern), its exact
value, the flags of its reading, whether it is a signalling NaN, and the address of its poison. -/
structure VIn where
  bits : Nat
  val : Val
  fl : BitVec 5
  snan : Bool
  pois : Option Nat
  deriving DecidableEq, Repr

/-- Format code of the command's precision. -/
def precFmt (f : VCmd) : Nat := if f.prec64 then 8 else 7

/-- An element in the command's precision (R561): its pattern and the flags of a rounding. A signalling
NaN of a narrower format stays signalling, and a NaN of another format keeps neither its sign nor its payload: the quiet
one is canonical, the signalling one the pattern after positive infinity (DESIGN CHOICE, log entry 40). -/
def widenTo (c fmt bits : Nat) (panel : Bool) (v : Val) : Nat × BitVec 5 :=
  if fmt = c ∧ !panel then (bits, 0)
  else match v with
    | .nan =>
      if isSignalling fmt bits ∧ !panel then
        (if fmtWidth c < fmtWidth fmt then (qNan c, fInvalid) else (encodeInf c false + 1, 0))
      else (qNan c, 0)
    | v => let r := convert c .rne false 0 false v; (r.bits, r.flags)

/-- One element as a command reads it. -/
def readLane (rd : VRead) (c fmt bits : Nat) (panel : Bool) (v : Val) (pois : Option Nat) : VIn :=
  let w := match rd with
    | .prec => widenTo c fmt bits panel v
    | .int => (toTwos 32 (match v with | .fin n m _ => if n then -(m : Int) else (m : Int) | _ => 0), 0)
    | .exact => (bits, 0)
  ⟨w.1, v, w.2, isSignalling fmt bits && !panel, pois⟩

/-- Whether a source exists for the operation. -/
def srcNamed : VSrc → Bool
  | .none => false
  | _ => true

/-- The format code that a source's elements have. -/
def srcFmt (f : VCmd) : VSrc → Nat
  | .bench _ fmt _ _ => fmt
  | .vx _ => 7
  | _ => precFmt f

/-- Reads a source of N elements (R108, R564, R565). Under INT32 a register or a scalar gives its raw 32 bits (DESIGN CHOICE,
log entry 40). -/
def readSrc (rd : VRead) (f : VCmd) (s : VSrc) (j : Job) : Except Stop (List VIn × Job) :=
  match s with
  | .none => failCls cmdDecode
  | .bench op fmt panel scale =>
    if rd = .int ∧ !(fmt == 5 || fmt == 6 || fmt == 9) then failCls cmdDecode
    else
      match benchTens j.loops fmt panel false op scale 0 0 with
      | .error e => .error e
      | .ok t =>
        if t.count ≠ f.n then failCls cmdOperand
        else
          match readTens t j with
          | .error e => .error e
          | .ok (es, j) =>
            .ok ((es.zip t.addrs).map (fun p => readLane rd (precFmt f) fmt p.1.bits panel (elemVal t p.1)
              (if p.1.poison then some (elemAddr p.2) else none)), j)
  | .vx r =>
    if 15 < r then failCls cmdDecode
    else
      .ok ((List.range f.n).map (fun e =>
        let b := (vxLane j.d j.core r (e % 64)).toNat
        let fmt := if rd = .int then 9 else 7
        readLane rd (precFmt f) fmt b false (decodeElem fmt b) none), j)
  | .scalar bits =>
    let c := if rd = .int then 9 else precFmt f
    let b := bits.toNat % 2 ^ fmtWidth c
    .ok (List.replicate f.n (readLane rd (precFmt f) c b false (decodeElem c b) none), j)

/-- Reads the sources of an operation. -/
def readSrcs (rd : VRead) (f : VCmd) : List VSrc → Job → Except Stop (List (List VIn) × Job)
  | [], j => .ok ([], j)
  | s :: ss, j =>
    match readSrc rd f s j with
    | .error e => .error e
    | .ok (l, j) =>
      match readSrcs rd f ss j with
      | .error e => .error e
      | .ok (ls, j) => .ok (l :: ls, j)

/-- The elements side by side: one list of operands for each element. -/
def transposeLanes (n : Nat) (ls : List (List VIn)) : List (List VIn) :=
  (List.range n).map (fun i => ls.filterMap (fun l => l[i]?))

/-! ### Predication (R112) -/

/-- Reads `n` mask bits; a poisoned mask word is consumed. -/
def readMask (mask : Stepped) (n : Nat) (j : Job) : Except Stop (List Bool × Job) :=
  let a := steppedVal j.loops mask
  let len := 8 * ((n + 63) / 64)
  if a < 0 ∨ a % 8 ≠ 0 ∨ (benchSize : Int) < a + len then failCls cmdBenchRange
  else if benchPoisoned j.d j.core a.toNat len then failAddr poisonCls a.toNat
  else
    let x := benchLe j.d j.core a.toNat len
    .ok ((List.range n).map (fun i => bitOf x i), { j with reads := (a.toNat, len) :: j.reads })

/-- The lanes of a command that run, under PRED. -/
def predLanes (f : VCmd) (n : Nat) (j : Job) : Except Stop (List Bool × Job) :=
  if f.pred = .none then .ok (List.replicate n true, j) else readMask f.mask n j

/-- What a lane that does not run leaves. -/
def maskedLane (f : VCmd) : Lane := if f.pred = .merge then .keep else .zero

/-! ### Destinations -/

/-- A destination ready to be written: a tensor of the bench with its gauge slot, or a register with the
format of its conversion. -/
inductive VTo where
  | tens (t : Tens) (g : GaugeCfg)
  | vx (r fmt : Nat)
  deriving Repr

/-- Checks a destination of `n` elements (R108, R133, R144, R564), with ZTID a 24-bit field (R132, R177). `cvt` says that
a register takes VCVT's destination format. -/
def planDst (f : VCmd) (n : Nat) (cvt : Bool) (j : Job) : Except Stop (VTo × Job) :=
  if 2 ^ 24 ≤ f.ztid then failCls cmdDecode
  else match f.dst with
  | .vx r fmt panel =>
    if 15 < r ∨ (cvt ∧ (7 < fmt ∨ panel)) then failCls cmdDecode
    else .ok (.vx r (if cvt then fmt else 7), j)
  | .bench op fmt panel scale =>
    let zorg := steppedVal j.loops f.zorg
    match benchTens j.loops fmt panel true op scale f.ztid zorg.toNat with
    | .error e => .error e
    | .ok t =>
      if t.count ≠ n then failCls cmdOperand
      else
        match zhvRangeCheck zorg n with
        | .error e => .error e
        | .ok _ =>
          match gaugeCheck f.conv.gslot fmt panel j with
          | .error e => .error e
          | .ok (g, j) => .ok (.tens t g, j)

/-- The regions of a destination. -/
def dstRegions : VTo → List Region
  | .tens t _ => t.addrs.map (fun a => Region.bench (elemBytes t.width a).1 (elemBytes t.width a).2)
  | .vx r _ => [Region.vx r]

/-- What a register lane receives (R564): one conversion, and the value then held as binary32; its flags, and whether a
NaN met a format without NaN (R44). -/
def vxConv (f : VCmd) (fmt r16 : Nat) (l : Lane) : Option (BitVec 32 × BitVec 5 × Bool) :=
  match l with
  | .keep => none
  | .zero => some (0, 0, false)
  | .bits b => some (BitVec.ofNat 32 b, 0, false)
  | .val v sn =>
    let r := convert fmt f.conv.round f.conv.sat r16 sn v
    some (BitVec.ofNat 32 (convert 7 .rne false 0 false (decodeElem fmt r.bits)).bits, r.flags, r.nanEvent)
  | .quot v den =>
    let r := convertQuot fmt 127 f.conv.round f.conv.sat r16 den v
    some (BitVec.ofNat 32 r.bits, r.flags, r.nanEvent)

/-- Adds to the IEEE status flags of a context (R36). -/
def addFlags (ctx : Nat) (fl : BitVec 5) (d : Dev) : Dev := modCtx ctx (fun x => { x with ieee := x.ieee ||| fl }) d

/-- Writes lanes to a register: element e to lane e mod 64 (R564). -/
def vxWrite (f : VCmd) (r fmt : Nat) (lanes : List Lane) (j : Job) : Job :=
  let zorg := (steppedVal j.loops f.zorg).toNat
  let d := ((List.range lanes.length).zip lanes).foldl (fun d (p : Nat × Lane) =>
    match vxConv f fmt (elemRandom j f.conv f.ztid (zorg + p.1)) p.2 with
    | none => d
    | some v => raiseNans j fmt (bit01 v.2.2) (addFlags j.ctx v.2.1 (setVxLane j.core r (p.1 % 64) v.1 d))) j.d
  { j with d := d, dsts := Region.vx r :: j.dsts }

/-- Writes lanes to a destination. -/
def writeDst (f : VCmd) (dto : VTo) (lanes : List Lane) (j : Job) : Except Stop Job :=
  match dto with
  | .tens t g => convWrite t f.conv g lanes j
  | .vx r fmt => .ok (vxWrite f r fmt lanes j)

/-! ### Element-wise commands -/

/-- The first poisoned source of a running element (R112, R128). -/
def lanePoison (run : Bool) (ins : List VIn) : Option Nat :=
  if run then ins.findSome? (·.pois) else none

/-- Elements whose sources are poisoned: where, and the address consumed. -/
def poisonedLanes (runs : List Bool) (rows : List (List VIn)) : List (Nat × Nat) :=
  ((List.range rows.length).zip (runs.zip rows)).filterMap (fun (p : Nat × (Bool × List VIn)) =>
    (lanePoison p.2.1 p.2.2).map (fun a => (p.1, a)))

/-- Flags of a list of lanes. -/
def orFlags (l : List (BitVec 5)) : BitVec 5 := l.foldl (fun a b => a ||| b) 0

/-- Poison left by the running elements of a destination whose sources are poisoned (R112, R128): the address consumed,
the elements that become poison, and their gauge share (R146). -/
def laneFail {α : Type} (dto : VTo) (bad : List (Nat × Nat)) : Except Stop α :=
  let rs := dstRegions dto
  let hit := match dto with
    | .tens _ _ => bad.filterMap (fun p => rs[p.1]?)
    | .vx _ _ => []
  let share := match dto with
    | .tens _ g => [gaugePoison g hit.length]
    | .vx _ _ => []
  .error (.err { cls := poisonCls, addr := (bad.head?.map (·.2)).getD 0, dsts := rs, pois := hit, gauge := share })

/-- The body of an element-wise command: `op` gives a running element's lane and flags. -/
def vElem (f : VCmd) (rd : VRead) (srcs : List VSrc) (cvt : Bool) (sel : Bool)
    (op : Job → Bool → List VIn → Lane × BitVec 5) (j : Job) : Except Stop Job :=
  if 2 ^ 24 < f.n then failCls cmdDecode
  else if f.n = 0 then .ok j
  else
    match planDst f f.n cvt j with
    | .error e => .error e
    | .ok (dto, j) =>
      match readSrcs rd f srcs j with
      | .error e => .error e
      | .ok (ls, j) =>
        match (if sel then readMask f.mask f.n j else predLanes f f.n j) with
        | .error e => .error e
        | .ok (bits, j) =>
          let rows := transposeLanes f.n ls
          let runs := if sel then List.replicate f.n true else bits
          match poisonedLanes runs rows with
          | b :: bs => laneFail dto (b :: bs)
          | [] =>
            let outs := (rows.zip (runs.zip bits)).map (fun (p : List VIn × (Bool × Bool)) =>
              if p.2.1 then
                let o := op j p.2.2 p.1
                (o.1, o.2 ||| orFlags (p.1.map (·.fl)))
              else (maskedLane f, 0))
            let j := { j with d := addFlags j.ctx (orFlags (outs.map (·.2))) j.d }
            withDsts (dstRegions dto) (writeDst f dto (outs.map (·.1)) j)

/-- The lane of a result pattern in the command's precision. With `keep`, the operation acts on bits: a NaN
goes unchanged into a destination of the same format (R36). -/
def resultLane (f : VCmd) (keep : Bool) (bits : Nat) : Lane :=
  let c := precFmt f
  let same := match f.dst with
    | .bench _ fmt panel _ => fmt == c && !panel
    | .vx _ _ _ => c == 7
  if keep && same && isNanBits c bits then .bits bits
  else .val (decodeElem c bits) (isSignalling c bits)

/-- Operand pattern `i` of an element. -/
def opnd (l : List VIn) (i : Nat) : Nat := match l[i]? with
  | some x => x.bits
  | none => 0

/-- An arithmetic command in binary32 or binary64. `ftz` says that VEC.FTZ applies (R37). -/
def vFloat (f : VCmd) (srcs : List VSrc) (ftz keep : Bool)
    (op : Nat → RoundMode → Bool → List VIn → FlagRes) (j : Job) : Except Stop Job :=
  vElem f .prec srcs false false (fun j _ l =>
    let r := op (precFmt f) f.rnd (ftz && (ctxAt j.d j.ctx).ftz) l
    (resultLane f keep r.1, r.2)) j

/-- An arithmetic command, whose RND is one of the four IEEE attributes (R110, R193). -/
def arith (f : VCmd) (body : Job → Except Stop Job) (j : Job) : Except Stop Job :=
  if f.rnd = .sr then failCls cmdDecode else body j

/-- A command that binary64 does not offer (R109). -/
def only32 (f : VCmd) (body : Job → Except Stop Job) (j : Job) : Except Stop Job :=
  if f.prec64 then failCls cmdDecode else body j

/-- An INT32 command (R565): wraps modulo 2^32, raises no flag. -/
def vInt (f : VCmd) (op : Nat → Nat → Nat) (j : Job) : Except Stop Job :=
  only32 f (vElem f .int [f.a, f.b] false false (fun _ _ l =>
    let v := op (opnd l 0) (opnd l 1) % 2 ^ 32
    match f.dst with
    | .vx _ _ _ => (.bits v, 0)
    | .bench _ _ _ _ =>
      let i := ofTwos 32 v
      (.val (.fin (decide (i < 0)) i.natAbs 0) false, 0))) j

/-- A V-queue command. -/
def runV (q : QCmd) (body : Job → Except Stop Job) (s : State) : Host.Outcome State Fault Refusal :=
  onDev (coreKnown q.core) (runCmd q [2] true false [] [] body) s

/-- VADD (R109). -/
def execVadd (q : QCmd) (f : VCmd) (s : State) : Host.Outcome State Fault Refusal :=
  runV q (arith f (vFloat f [f.a, f.b] true false (fun c rm z l => fAdd c rm z (opnd l 0) (opnd l 1)))) s

/-- VSUB (R109). -/
def execVsub (q : QCmd) (f : VCmd) (s : State) : Host.Outcome State Fault Refusal :=
  runV q (arith f (vFloat f [f.a, f.b] true false (fun c rm z l => fSub c rm z (opnd l 0) (opnd l 1)))) s

/-- VMUL (R109). -/
def execVmul (q : QCmd) (f : VCmd) (s : State) : Host.Outcome State Fault Refusal :=
  runV q (arith f (vFloat f [f.a, f.b] true false (fun c rm z l => fMul c rm z (opnd l 0) (opnd l 1)))) s

/-- VFMA (R109). -/
def execVfma (q : QCmd) (f : VCmd) (s : State) : Host.Outcome State Fault Refusal :=
  runV q (arith f (vFloat f [f.a, f.b, f.c] true false (fun c rm z l => fFma c rm z (opnd l 0) (opnd l 1) (opnd l 2)))) s

/-- VMIN (R109): IEEE minimum. -/
def execVmin (q : QCmd) (f : VCmd) (s : State) : Host.Outcome State Fault Refusal :=
  runV q (vFloat f [f.a, f.b] false false (fun c _ _ l => fMinMax c false (opnd l 0) (opnd l 1))) s

/-- VMAX (R109): IEEE maximum. -/
def execVmax (q : QCmd) (f : VCmd) (s : State) : Host.Outcome State Fault Refusal :=
  runV q (vFloat f [f.a, f.b] false false (fun c _ _ l => fMinMax c true (opnd l 0) (opnd l 1))) s

/-- VMINNUM (R109): IEEE minimumNumber. -/
def execVminnum (q : QCmd) (f : VCmd) (s : State) : Host.Outcome State Fault Refusal :=
  runV q (vFloat f [f.a, f.b] false false (fun c _ _ l => fMinMaxNum c false (opnd l 0) (opnd l 1))) s

/-- VMAXNUM (R109): IEEE maximumNumber. -/
def execVmaxnum (q : QCmd) (f : VCmd) (s : State) : Host.Outcome State Fault Refusal :=
  runV q (vFloat f [f.a, f.b] false false (fun c _ _ l => fMinMaxNum c true (opnd l 0) (opnd l 1))) s

/-- VABS (R36, R109). -/
def execVabs (q : QCmd) (f : VCmd) (s : State) : Host.Outcome State Fault Refusal :=
  runV q (vFloat f [f.a] false true (fun c _ _ l => (fAbs c (opnd l 0), 0))) s

/-- VNEG (R36, R109). -/
def execVneg (q : QCmd) (f : VCmd) (s : State) : Host.Outcome State Fault Refusal :=
  runV q (vFloat f [f.a] false true (fun c _ _ l => (fNeg c (opnd l 0), 0))) s

/-- VCOPYSIGN (R36, R109): A with the sign of B. -/
def execVcopysign (q : QCmd) (f : VCmd) (s : State) : Host.Outcome State Fault Refusal :=
  runV q (vFloat f [f.a, f.b] false true (fun c _ _ l => (fCopySign c (opnd l 0) (opnd l 1), 0))) s

/-- VRCP (R113). -/
def execVrcp (q : QCmd) (f : VCmd) (s : State) : Host.Outcome State Fault Refusal :=
  runV q (arith f (only32 f (vFloat f [f.a] true false (fun c rm z l => fRcp c rm z (opnd l 0))))) s

/-- VRSQRT (R113). -/
def execVrsqrt (q : QCmd) (f : VCmd) (s : State) : Host.Outcome State Fault Refusal :=
  runV q (arith f (only32 f (vFloat f [f.a] true false (fun c rm z l => fRsqrt c rm z (opnd l 0))))) s

/-- VEXP2 (R113). -/
def execVexp2 (q : QCmd) (f : VCmd) (s : State) : Host.Outcome State Fault Refusal :=
  runV q (arith f (only32 f (vFloat f [f.a] true false (fun _ rm z l => fExp2 rm z (opnd l 0))))) s

/-- VLOG2 (R113). -/
def execVlog2 (q : QCmd) (f : VCmd) (s : State) : Host.Outcome State Fault Refusal :=
  runV q (arith f (only32 f (vFloat f [f.a] true false (fun _ rm z l => fLog2 rm z (opnd l 0))))) s

/-- VDIV (R113): A divided by B. -/
def execVdiv (q : QCmd) (f : VCmd) (s : State) : Host.Outcome State Fault Refusal :=
  runV q (arith f (vFloat f [f.a, f.b] true false (fun c rm z l => fDiv c rm z (opnd l 0) (opnd l 1)))) s

/-- VSQRT (R113). -/
def execVsqrt (q : QCmd) (f : VCmd) (s : State) : Host.Outcome State Fault Refusal :=
  runV q (arith f (vFloat f [f.a] true false (fun c rm z l => fSqrt c rm z (opnd l 0)))) s

/-- VFUNC (R114 to R117, R563): internal steps under roundTiesToEven. -/
def execVfunc (q : QCmd) (f : VCmd) (s : State) : Host.Outcome State Fault Refusal :=
  runV q (only32 f (vFloat f [f.a] true false (fun _ _ z l => refFunc f.func z (opnd l 0)))) s

/-- VCVT (R39, R108, R109): one conversion of the exact value. -/
def execVcvt (q : QCmd) (f : VCmd) (s : State) : Host.Outcome State Fault Refusal :=
  runV q (vElem f .exact [f.a] true false (fun _ _ l =>
    match l with
    | x :: _ => (.val x.val x.snan, 0)
    | [] => (.keep, 0))) s

/-- VSEL (R36, R565): A where the element's mask bit is 1, else B. -/
def execVsel (q : QCmd) (f : VCmd) (s : State) : Host.Outcome State Fault Refusal :=
  runV q (vElem f .prec [f.a, f.b] false true (fun _ bit l =>
    (resultLane f true (if bit then opnd l 0 else opnd l 1), 0))) s

/-- VIADD (R565). -/
def execViadd (q : QCmd) (f : VCmd) (s : State) : Host.Outcome State Fault Refusal :=
  runV q (vInt f (fun a b => a + b)) s

/-- VISUB (R565). -/
def execVisub (q : QCmd) (f : VCmd) (s : State) : Host.Outcome State Fault Refusal :=
  runV q (vInt f (fun a b => a + 2 ^ 32 - b)) s

/-- VIAND (R565). -/
def execViand (q : QCmd) (f : VCmd) (s : State) : Host.Outcome State Fault Refusal :=
  runV q (vInt f (fun a b => a &&& b)) s

/-- VIOR (R565). -/
def execVior (q : QCmd) (f : VCmd) (s : State) : Host.Outcome State Fault Refusal :=
  runV q (vInt f (fun a b => a ||| b)) s

/-- VIXOR (R565). -/
def execVixor (q : QCmd) (f : VCmd) (s : State) : Host.Outcome State Fault Refusal :=
  runV q (vInt f (fun a b => a ^^^ b)) s

/-- VISHL (R109, R565): the count modulo 32. -/
def execVishl (q : QCmd) (f : VCmd) (s : State) : Host.Outcome State Fault Refusal :=
  runV q (vInt f (fun a b => a * 2 ^ (b % 32))) s

/-- VISHR (R109, R565): arithmetic, the count modulo 32. -/
def execVishr (q : QCmd) (f : VCmd) (s : State) : Host.Outcome State Fault Refusal :=
  runV q (vInt f (fun a b => toTwos 32 ((ofTwos 32 a).fdiv (2 ^ (b % 32) : Nat)))) s

/-! ### Compares to a mask (R565) -/

/-- One mask word of a compare: bits of the running elements, kept and zeroed bits. -/
def maskWord (old : Nat) (bits : List (Option Bool)) : Nat :=
  bitMap (((List.range bits.length).zip bits).filterMap (fun (p : Nat × Option Bool) =>
    match p.2 with
    | some b => if b then some p.1 else none
    | none => if bitOf old p.1 then some p.1 else none))

/-- The body of VCMP and VICMP. -/
def vCompare (f : VCmd) (rd : VRead) (op : Nat → Nat → Bool × BitVec 5) (j : Job) : Except Stop Job :=
  if 2 ^ 24 < f.n then failCls cmdDecode
  else if f.n = 0 then .ok j
  else
    match f.dst with
    | .vx _ _ _ => failCls cmdDecode
    | .bench dop _ _ _ =>
      let base := steppedVal j.loops dop.base
      let words := (f.n + 63) / 64
      if base % 8 ≠ 0 then failCls cmdDecode
      else if base < 0 ∨ (benchSize : Int) < base + 8 * words then failCls cmdBenchRange
      else
        let region := Region.bench base.toNat (8 * words)
        match readSrcs rd f [f.a, f.b] j with
        | .error e => .error e
        | .ok (ls, j) =>
          match predLanes f f.n j with
          | .error e => .error e
          | .ok (runs, j) =>
            let rows := transposeLanes f.n ls
            match poisonedLanes runs rows with
            | (i0, a) :: rest =>
              let pois := (i0 :: rest.map (·.1)).map (fun i => Region.bench (base.toNat + 8 * (i / 64)) 8)
              .error (.err { cls := poisonCls, addr := a, dsts := [region], pois := pois })
            | [] =>
              let outs := (rows.zip runs).map (fun (p : List VIn × Bool) =>
                if p.2 then
                  let r := op (opnd p.1 0) (opnd p.1 1)
                  (some r.1, r.2 ||| orFlags (p.1.map (·.fl)))
                else if f.pred = .merge then (none, 0) else (some false, 0))
              let pieces := chunksOf outs.length 64 (outs.map (·.1))
              let ws := ((List.range words).zip pieces).map (fun (p : Nat × List (Option Bool)) =>
                let at_ := base.toNat + 8 * p.1
                let old := benchLe j.d j.core at_ 8
                let held := p.2.any (·.isNone) && benchPoisoned j.d j.core at_ 8
                ((⟨8 * (at_ : Int), 64, maskWord old p.2⟩ : BitWrite), held))
              let j := { j with d := addFlags j.ctx (orFlags (outs.map (·.2))) j.d }
              match putWrites true (ws.map (·.1)) j with
              | .error e => .error e
              | .ok j =>
                let d := ws.foldl (fun d p => if p.2 then benchPoison j.core (p.1.at_.toNat / 8) 8 d else d) j.d
                .ok { j with d := d }

/-- VCMP (R109, R565): quiet compare. -/
def execVcmp (q : QCmd) (f : VCmd) (s : State) : Host.Outcome State Fault Refusal :=
  runV q (vCompare f .prec (fun a b => fCmp (precFmt f) f.cond a b)) s

/-- A signed 32-bit comparison; integers are never unordered. -/
def intCmp (c : Cond) (a b : Int) : Bool :=
  match c with
  | .eq => decide (a = b)
  | .ne => decide (a ≠ b)
  | .lt => decide (a < b)
  | .le => decide (a ≤ b)
  | .un => false

/-- VICMP (R109, R565). -/
def execVicmp (q : QCmd) (f : VCmd) (s : State) : Host.Outcome State Fault Refusal :=
  runV q (only32 f (vCompare f .int (fun a b => (intCmp f.cond (ofTwos 32 a) (ofTwos 32 b), 0)))) s

/-! ### VSPAN (R124) -/

/-- The terms of a VSPAN: exact single values or products. -/
def spanTerm (prod : Bool) (l : List VIn) : Val :=
  match l with
  | [] => .nan
  | x :: r => if prod then Val.mul x.val (match r with | y :: _ => y.val | [] => .nan) else x.val

/-- A record after one element. -/
def spanEnter (r : Red) (run : Bool) (x : Val) (s : SpanRec) : SpanRec :=
  let s := { s with count := (s.count + 1) % 2 ^ 44 }
  if !run then s
  else match x with
    | .fin _ _ _ =>
      let eobs := maxExp s.eobs (termExp x)
      let redo := s.redo || (r.path == 1 && !anchorFits eobs r.k s.anchor r.w)
      { s with eobs := eobs, redo := redo, i := if redo then s.i else s.i + enterFloor s.anchor x }
    | _ => if s.redo then s else { s with sticky := s.sticky.or (stickyOf x) }

/-- Elements enter the records, element i into record i mod R. -/
def spanEnterAll (r : Red) (terms : List (Bool × Val)) (recs : List SpanRec) : List SpanRec :=
  ((List.range terms.length).zip terms).foldl (fun recs (p : Nat × (Bool × Val)) =>
    let k := p.1 % recs.length
    match recs[k]? with
    | some s => recs.set k (spanEnter r p.2.1 p.2.2 s)
    | none => recs) recs

/-- The largest exponent of the running terms: the first sweep. -/
def spanSweep (terms : List (Bool × Val)) : Int :=
  terms.foldl (fun e t => if t.1 then maxExp e (termExp t.2) else e) noExp

/-- Writes span records to the bench. -/
def writeSpans (base : Nat) (recs : List SpanRec) (j : Job) : Except Stop Job :=
  putWrites true (((List.range recs.length).zip recs).map (fun (p : Nat × SpanRec) =>
    (⟨8 * ((base : Int) + 32 * p.1), 256, ofLe (packSpan p.2)⟩ : BitWrite))) j

/-- The base of a destination of VSPAN, VREDMAX and VREDMIN, named by its BASE alone: its sizes and strides are ignored, as
R565 says of VCMP and VICMP and the spec leaves open here; so are those of A of VSPAN_OUT (DESIGN CHOICE, log entry 39). -/
def dstBase (f : VCmd) (j : Job) : Option Int :=
  match f.dst with
  | .bench op _ _ _ => some (steppedVal j.loops op.base)
  | .vx _ _ _ => none

/-- The record address that a poisoned span record reports. -/
def poisonedSpan (base : Nat) (rs : List (SpanRec × Bool)) : Option Nat :=
  (((List.range rs.length).zip rs).find? (fun p => p.2.2)).map (fun p => base + 32 * p.1)

/-- VSPAN's records before its terms (R62, R124). -/
def spanRecords (f : VCmd) (r : Red) (sweep : Int) (old : List SpanRec) (d : Dev) : Except Stop (List SpanRec) :=
  if f.openRec then
    match (if r.path = 1 ∧ !r.resolved then firstFit r.l0 sweep r.k r.w else some r.l) with
    | none => failRedAt spanAnchorRange f.rslot d
    | some l => .ok (List.replicate f.r { anchor := l, valid := true, rslot := f.rslot, redone := f.redoOnly })
  else if old.any (fun x => !x.valid || x.rslot != f.rslot) then failRedAt spanSlot f.rslot d
  else .ok old

/-- Whether a VSPAN may add to a reduction (R53, R57, R74, R76). Log entry 39: the reduction must be open and not S5-order. -/
def vspanCheck (f : VCmd) (r : Red) (d : Dev) : Except Stop Unit :=
  let prod := srcNamed f.b
  let srcs := if prod then [f.a, f.b] else [f.a]
  let panel := srcs.any (fun s => match s with | .bench _ _ p _ => p | _ => false)
  if !r.isOpen then failRedAt spanSlot f.rslot d
  else if r.path = 3 ∨ prod = r.single ∨ srcs.any (fun s => srcFmt f s != r.fmt) ∨ (panel ∧ r.path ≠ 0) then
    failRedAt spanMismatch f.rslot d
  else if r.path = 0 ∧ !r.resolved then failRedAt spanUnresolved f.rslot d
  else .ok ()

/-- The terms of a VSPAN that runs, into its records. -/
def vspanRun (f : VCmd) (r : Red) (base : Nat) (old : List SpanRec) (j : Job) : Except Stop Job :=
  let prod := srcNamed f.b
  match readSrcs .exact f (if prod then [f.a, f.b] else [f.a]) j with
  | .error e => .error e
  | .ok (ls, j) =>
    match predLanes f f.n j with
    | .error e => .error e
    | .ok (runs, j) =>
      let rows := transposeLanes f.n ls
      let terms := runs.zip (rows.map (spanTerm prod))
      match spanRecords f r (spanSweep terms) old j.d with
      | .error e => .error e
      | .ok recs =>
        match poisonedLanes runs rows with
        | (i0, a) :: rest =>
          let pois := (i0 :: rest.map (·.1)).map (fun i => Region.bench (base + 32 * (i % f.r)) 32)
          .error (.err { cls := poisonCls, addr := a, dsts := [Region.bench base (32 * f.r)], pois := pois })
        | [] => writeSpans base (spanEnterAll r terms recs) j

/-- VSPAN's work. The records are read where the command adds to them, and for their marks under REDO_ONLY; a REDO_ONLY
command that does not run is empty (R62, R192). -/
def vspanBody (f : VCmd) (j : Job) : Except Stop Job :=
  if 2 ^ 24 < f.n ∨ 1023 < f.rslot ∨ f.r < 1 ∨ 4096 < f.r then failCls cmdDecode
  else if f.n = 0 then .ok j
  else
    match dstBase f j with
    | none => failCls cmdDecode
    | some b =>
      match readSpans b f.r j with
      | .error e => .error e
      | .ok (old, jr) =>
        let reads := !f.openRec || f.redoOnly
        let recs := old.map (·.1)
        match (if reads then poisonedSpan b.toNat old else none) with
        | some a => failAddr poisonCls a
        | none =>
          if f.redoOnly && !f.openRec && !recs.any (·.redone) then .ok j
          else
            match redLoad j.unit j.ctx f.rslot j.d with
            | .error e => .error e
            | .ok (r, d) =>
              match vspanCheck f r d with
              | .error e => .error e
              | .ok _ =>
                if f.redoOnly && f.openRec && !recs.any (fun x => x.anchor != r.l || x.redo) then .ok { j with d := d }
                else vspanRun f r b.toNat recs { (if reads then jr else j) with d := d }

/-- VSPAN (R124). -/
def execVspan (q : QCmd) (f : VCmd) (s : State) : Host.Outcome State Fault Refusal :=
  runV q (vspanBody f) s

/-! ### VSPAN_OUT (R125) -/

/-- Sets RED.SAT of a record (R68). -/
def setRedSat (slot : Nat) (j : Job) : Except Stop Job :=
  match redLoad j.unit j.ctx slot j.d with
  | .error e => .error e
  | .ok (r, d) =>
    match redStore j.unit j.ctx slot { r with sat := true } d with
    | .error e => .error e
    | .ok d => .ok { j with d := d }

/-- Whether a quotient leaves the INT32 range. -/
def beyondInt32 (v : Val) (den : Nat) : Bool :=
  match v with
  | .fin neg m e =>
    let lim := (if neg then 2 ^ 31 else 2 ^ 31 - 1) * den
    !leScaled m e lim 0
  | .inf _ => true
  | .nan => false

/-- Clears SPAN.VALID of the records at an address (R125). -/
def clearValid (base n : Nat) (j : Job) : Except Stop Job :=
  putWrites true ((List.range n).map (fun k =>
    let a := base + 32 * k + 21
    (⟨8 * (a : Int), 8, benchLe j.d j.core a 1 % 128⟩ : BitWrite))) j

/-- The checks of VSPAN_OUT's records against their reduction (R63, R76); a poisoned record of a masked lane is passed
over (R112). -/
def spanOutCheck (slot : Nat) (r : Red) (recs : List (SpanRec × Bool)) (d : Dev) : Except Stop Unit :=
  let xs := (recs.filter (fun x => !x.2)).map (·.1)
  if xs.any (fun x => !x.valid || x.rslot != slot) then failRedAt spanSlot slot d
  else if !r.resolved then failRedAt spanUnresolved slot d
  else if xs.any (fun x => x.redo || x.anchor != r.l) then failRedAt spanRedoPending slot d
  else .ok ()

/-- The outputs of VSPAN_OUT: quotients, VALID, and RED.SAT where an INT32 element of the integer path saturates
(R68, R125). -/
def spanOutRun (f : VCmd) (r : Red) (base : Nat) (dto : VTo) (runs : List Bool) (recs : List SpanRec) (j : Job) :
    Except Stop Job :=
  let vals := recs.map (fun x => spanVal x.i x.anchor x.sticky)
  let lanes := (runs.zip vals).map (fun p => if p.1 then Lane.quot p.2 f.d else maskedLane f)
  let int32 := match f.dst with
    | .bench _ fmt _ _ => fmt == 9
    | .vx _ _ _ => false
  match withDsts (dstRegions dto) (writeDst f dto lanes j) with
  | .error e => .error e
  | .ok j =>
    match (if f.keep then .ok j else clearValid base f.r j) with
    | .error e => .error e
    | .ok j =>
      if r.path == 2 && int32 && (runs.zip vals).any (fun p => p.1 && beyondInt32 p.2 f.d) then setRedSat f.rslot j
      else .ok j

/-- VSPAN_OUT's work. -/
def spanOutBody (f : VCmd) (j : Job) : Except Stop Job :=
  if 1023 < f.rslot ∨ f.r < 1 ∨ 4096 < f.r ∨ f.d < 1 ∨ 2 ^ 32 ≤ f.d then failCls cmdDecode
  else
    match f.a with
    | .bench op _ _ _ =>
      let base := steppedVal j.loops op.base
      match readSpans base f.r j with
      | .error e => .error e
      | .ok (old, j) =>
        match planDst f f.r false j with
        | .error e => .error e
        | .ok (dto, j) =>
          match predLanes f f.r j with
          | .error e => .error e
          | .ok (runs, j) =>
            match ((List.range f.r).zip (runs.zip old)).filter (fun p => p.2.1 && p.2.2.2) with
            | b :: bs => laneFail dto ((b :: bs).map (fun p => (p.1, base.toNat + 32 * p.1)))
            | [] =>
              match redLoad j.unit j.ctx f.rslot j.d with
              | .error e => .error e
              | .ok (r, d) =>
                match spanOutCheck f.rslot r old d with
                | .error e => .error e
                | .ok _ => spanOutRun f r base.toNat dto runs (old.map (·.1)) { j with d := d }
    | _ => failCls cmdDecode

/-- VSPAN_OUT (R125). -/
def execVspanOut (q : QCmd) (f : VCmd) (s : State) : Host.Outcome State Fault Refusal :=
  runV q (spanOutBody f) s

/-! ### VREDMAX and VREDMIN (R69, R70, R126) -/

/-- A pair record: value, index, whether this command wrote it, and whether its value is a signalling NaN. -/
structure RedPair where
  val : Val
  idx : Int
  new : Bool
  snan : Bool
  deriving DecidableEq, Repr

/-- Elements enter the pair records. -/
def pairEnterAll (big : Bool) (ibase : Nat) (elems : List (Bool × VIn)) (ps : List RedPair) : List RedPair :=
  ((List.range elems.length).zip elems).foldl (fun ps (p : Nat × (Bool × VIn)) =>
    let k := p.1 % ps.length
    match ps[k]? with
    | some c =>
      let i : Int := ofTwos 32 (ibase + p.1)
      if p.2.1 && beats big p.2.2.val i c.val c.idx then ps.set k ⟨p.2.2.val, i, true, p.2.2.snan⟩ else ps
    | none => ps) ps

/-- The 64-bit pattern of a pair record (R126) and the flags of its conversion (R562). -/
def pairBits (f : VCmd) (r16 : Nat) (p : RedPair) : Nat × BitVec 5 :=
  let r := convert 7 f.conv.round f.conv.sat r16 p.snan p.val
  (r.bits + toTwos 32 p.idx * 2 ^ 32, r.flags)

/-- The body of VREDMAX and VREDMIN. The conversion of record k under SR takes position ZORG + k, and ZORG plus the larger
of N and R is held to 2^43 (R133). -/
def vRedBody (f : VCmd) (big : Bool) (j : Job) : Except Stop Job :=
  if 2 ^ 24 < f.n ∨ f.r < 1 ∨ 4096 < f.r ∨ 2 ^ 24 ≤ f.ztid then failCls cmdDecode
  else if f.n = 0 then .ok j
  else
    match dstBase f j with
    | none => failCls cmdDecode
    | some b =>
      match zhvRangeCheck (steppedVal j.loops f.zorg) (max f.n f.r) with
      | .error e => .error e
      | .ok _ =>
      if b < 0 ∨ b % 8 ≠ 0 ∨ (benchSize : Int) < b + 8 * f.r then failCls cmdBenchRange
      else
        match readSrcs .exact f [f.a] j with
        | .error e => .error e
        | .ok (ls, j) =>
          match predLanes f f.n j with
          | .error e => .error e
          | .ok (runs, j) =>
            let base := b.toNat
            let rows := transposeLanes f.n ls
            let start := (List.range f.r).map (fun k =>
              if f.openRec then (⟨.inf big, 0x7FFFFFFF, true, false⟩ : RedPair)
              else
                let x := benchLe j.d j.core (base + 8 * k) 8
                ⟨decodeElem 7 (x % 2 ^ 32), ofTwos 32 (x / 2 ^ 32), false, false⟩)
            match (if f.openRec then none else (List.range f.r).find? (fun k =>
                benchPoisoned j.d j.core (base + 8 * k) 8 && (List.range f.n).any (fun i => i % f.r == k && runs.getD i false))) with
            | some k => failAddr poisonCls (base + 8 * k)
            | none =>
              let rs := [Region.bench base (8 * f.r)]
              match poisonedLanes runs rows with
              | (i0, a) :: rest =>
                let pois := (i0 :: rest.map (·.1)).map (fun i => Region.bench (base + 8 * (i % f.r)) 8)
                .error (.err { cls := poisonCls, addr := a, dsts := rs, pois := pois })
              | [] =>
                let elems := runs.zip (rows.filterMap List.head?)
                let ps := pairEnterAll big f.indexBase elems start
                let zorg := (steppedVal j.loops f.zorg).toNat
                let outs := ((List.range f.r).zip ps).filterMap (fun (p : Nat × RedPair) =>
                  if p.2.new then some (p.1, pairBits f (elemRandom j f.conv f.ztid (zorg + p.1)) p.2) else none)
                let j := { j with
                  d := addFlags j.ctx (orFlags (outs.map (·.2.2))) j.d
                  reads := if f.openRec then j.reads else (base, 8 * f.r) :: j.reads }
                putWrites true (outs.map (fun p => (⟨8 * ((base : Int) + 8 * p.1), 64, p.2.1⟩ : BitWrite))) j

/-- VREDMAX (R69, R70, R126). -/
def execVredmax (q : QCmd) (f : VCmd) (s : State) : Host.Outcome State Fault Refusal :=
  runV q (vRedBody f true) s

/-- VREDMIN (R69, R70, R126). -/
def execVredmin (q : QCmd) (f : VCmd) (s : State) : Host.Outcome State Fault Refusal :=
  runV q (vRedBody f false) s

end Sys2Proof.Machine
end

