-- ==== Sys2Proof/Machine/StoreQ.lean ====
section
/-!
DEFINITION. The S queue's stores (08 R193): STORE, SCATTER (09 R221 to R224), EPILOGUE (04 R92 to R105) and
JRAW_STORE (03 R72, R73).
-/

namespace Sys2Proof.Machine

/-! ### STORE -/

/-- A source bench operand of a store. -/
def storeSrc (src : BenchOp) (fmt : Nat) (j : Job) : Except Stop Tens :=
  benchTens j.loops fmt false false src none 0 0

/-- The regions that a tensor's elements take: bench elements only, device ones being known once
translated. -/
def benchRegions (t : Tens) : List Region :=
  if t.bench then t.addrs.map (fun a => Region.bench (elemBytes t.width a).1 (elemBytes t.width a).2) else []

/-- STORE's work. -/
def storeBody (f : StoreF) (j : Job) : Except Stop Job :=
  match storeSrc f.src f.srcFmt j with
  | .error e => .error e
  | .ok src =>
    match readDesc j.d j.ctx (steppedVal j.loops f.dst) with
    | .error e => .error e
    | .ok x =>
      let j := j.tableRead (steppedVal j.loops f.dst)
      if !x.write ∨ x.idxEn ∨ x.elem ≠ 0 then failCls descUse
      else
        let t := descTens x false
        if t.count ≠ src.count then failCls cmdOperand
        else if src.count = 0 then .ok j
        else
          match gaugeCheck f.conv.gslot x.fmt x.panel j with
          | .error e => .error e
          | .ok (g, j) =>
            withDsts (benchRegions t) (match takeVals src j with
              | .error e => .error e
              | .ok (vs, j) => convWrite t f.conv g (vs.map (fun v => Lane.val v.1 v.2)) j)

/-- STORE (R39, R44, R132, R189). -/
def execStore (q : QCmd) (f : StoreF) (s : State) : Host.Outcome State Fault Refusal :=
  onDev (coreKnown q.core) (runCmd q [3] true false [] [] (storeBody f)) s

/-! ### SCATTER -/

/-- The ELEM that a mode needs (R221). -/
def modeElem : ScatterMode → Nat
  | .unique => 0
  | .sum => 1
  | .max | .min => 2

/-- The first repeated index: the ordinals of the earlier and the later (R222). -/
def duplicateOf (ts : List Int) : Option (Nat × Nat) :=
  ((List.range ts.length).zip ts).findSome? (fun (p : Nat × Int) =>
    (((List.range p.1).zip ts).find? (fun (q : Nat × Int) => q.2 == p.2)).map (fun q => (q.1, p.1)))

/-- The first index that is out of range or repeats one before it, in ordinal order (R222). -/
def uniqueCheck (size : Nat) (ts : List Int) : Except Stop Unit :=
  match badIndex size ts, duplicateOf ts with
  | some b, some q =>
    if b.1 ≤ q.2 then failIndex b else failAddr descDuplicate (packFields [(q.1, 32), (q.2, 32)])
  | some b, none => failIndex b
  | none, some q => failAddr descDuplicate (packFields [(q.1, 32), (q.2, 32)])
  | none, none => .ok ()

/-- The class of a deck operation that fails for a command of a context (R246, R264, R265). -/
def deckErr (va : Int) (slot : Nat) : DeckFail → Err
  | .operand => { cls := deckOperand, addr := toTwos 64 va }
  | .slot => { cls := spanSlot, addr := slot, red := some slot }
  | .mismatch => { cls := spanMismatch, addr := slot, red := some slot }
  | .poison => { cls := poisonCls, addr := toTwos 64 va }

/-- A single value as the one-term span record of an add (R47, R50, R54). -/
def termRec (slot : Nat) (anchor : Int) (v : Val) : SpanRec :=
  match v with
  | .fin _ _ _ =>
    { i := enterFloor anchor v, anchor := anchor, eobs := termExp v, valid := true, rslot := slot, count := 1 }
  | _ => { anchor := anchor, sticky := stickyOf v, valid := true, rslot := slot, count := 1 }

/-- One SADD at a device-virtual address, the failures with the state they leave. -/
def saddAt (va : Int) (x : SpanRec) (j : Job) : Except Stop Job :=
  match vAct j.unit j.ctx va { op := .sadd, width := 32, opnd := ofLe (packSpan x) } j.d with
  | .error (.err e) => .error (.err { e with dev := some j.d, dsts := j.dsts ++ e.dsts })
  | .error e => .error e
  | .ok (.error e, d) => .error (.err { deckErr va x.rslot e with dev := some d, dsts := j.dsts })
  | .ok (.ok r, d) => .ok { j with d := d, dsts := r.2 :: j.dsts }

/-- One element of a SUM scatter (R223). -/
def sumElem (fmt : Nat) (va : Int) (v : Val) (j : Job) : Except Stop Job :=
  match vTake j.unit j.ctx va 32 j.d with
  | .error e => .error e
  | .ok (bs, d) =>
    let t := parseSpan bs
    if !t.valid then failRedAt spanSlot t.rslot d
    else
      match redLoad j.unit j.ctx t.rslot d with
      | .error e => .error e
      | .ok (r, d) =>
        if !r.resolved then failRedAt spanUnresolved t.rslot d
        else if (r.path ≠ 0 ∧ r.path ≠ 2) ∨ !r.single ∨ r.fmt ≠ fmt ∨ t.anchor ≠ r.l then
          failRedAt spanMismatch t.rslot d
        else
          let x := termRec t.rslot t.anchor v
          if !widthOk r.w x.i then .error (.err { cls := spanWidth, addr := t.rslot, red := some t.rslot })
          else saddAt va x { j with d := d }

/-- One element of a MAX or MIN scatter (R224). -/
def pairElem (big : Bool) (va : Int) (v : Val × Bool) (index : Nat) (j : Job) : Except Stop Job :=
  let op : AtomicOp := if big then .maxi else .mini
  let c := convert 7 .rne false 0 v.2 v.1
  let bits := c.bits + 2 ^ 32 * (index % 2 ^ 32)
  let j := { j with d := addFlags j.ctx c.flags j.d }
  match vAct j.unit j.ctx va { op := op, width := 8, opnd := bits } j.d with
  | .error e => .error e
  | .ok (.error e, d) => .error (.err { deckErr va 0 e with dev := some d })
  | .ok (.ok r, d) => .ok { j with d := d, dsts := r.2 :: j.dsts }

/-- One element of a scatter in the modes SUM, MAX and MIN; a bad index stops the command there (R219). -/
def scatterElem (f : ScatterF) (size : Nat) (ix : Nat × Int) (va : Int) (v : Val × Bool) (n : Nat) (j : Job) :
    Except Stop Job :=
  let r : Except Stop Job :=
    if ix.2 < 0 ∨ (size : Int) ≤ ix.2 then failIndex ix
    else match f.mode with
      | .sum => sumElem f.srcFmt va v.1 j
      | .max => pairElem true va v (f.indexBase + n) j
      | _ => pairElem false va v (f.indexBase + n) j
  match r with
  | .error (.err e) => .error (.err { e with dsts := j.dsts ++ e.dsts, dev := some (e.dev.getD j.d) })
  | r => r

/-- The elements of a combining scatter in source order. -/
def scatterAll (f : ScatterF) (size : Nat) : Nat → List ((Nat × Int) × Int × (Val × Bool)) → Job → Except Stop Job
  | _, [], j => .ok j
  | n, e :: es, j =>
    match scatterElem f size e.1 e.2.1 e.2.2 n j with
    | .error e => .error e
    | .ok j => scatterAll f size (n + 1) es j

/-- The ordinal and value of the index of each element. -/
def elemIndexes (x : Desc192) (ts : List Int) : List (Nat × Int) :=
  (indexVecs (x.size.set x.idxDim ts.length)).map (fun iv =>
    let o := iv.getD x.idxDim 0
    (o, ts.getD o 0))

/-- SCATTER's work; an empty one reads no index (R186, R210). -/
def scatterBody (f : ScatterF) (j : Job) : Except Stop Job :=
  match storeSrc f.src f.srcFmt j with
  | .error e => .error e
  | .ok src =>
    match readDesc j.d j.ctx (steppedVal j.loops f.dst) with
    | .error e => .error e
    | .ok x =>
      let j := { j.tableRead (steppedVal j.loops f.dst) with atom := f.mode != .unique }
      let pair := f.mode == .max || f.mode == .min
      if !x.idxEn ∨ !x.write ∨ x.elem ≠ modeElem f.mode ∨ (f.mode ≠ .unique ∧ x.space) ∨ (pair ∧ 7 < f.srcFmt) then
        failCls descUse
      else
        match checkBench j.loops 32 false f.idx with
        | .error e => .error e
        | .ok _ =>
        if src.count ≠ indexedCount x f.idx then failCls cmdOperand
        else if indexedEmpty x f.idx then .ok j
        else
        match readIndexes f.idx j with
        | .error e => .error e
        | .ok (ts, j) =>
          if pair ∧ 2 ^ 31 < f.indexBase + src.count then failCls descUse
          else
            match takeVals src j with
            | .error e => .error e
            | .ok (vs, j) =>
              let t := indexedTens x ts false
              match f.mode with
              | .unique =>
                (match uniqueCheck (x.size.getD x.idxDim 0) ts with
                 | .error e => .error e
                 | .ok _ =>
                   match gaugeCheck f.conv.gslot x.fmt x.panel j with
                   | .error e => .error e
                   | .ok (g, j) =>
                     withDsts (benchRegions t) (convWrite t f.conv g (vs.map (fun v => Lane.val v.1 v.2)) j))
              | _ =>
                scatterAll f (x.size.getD x.idxDim 0) 0
                  ((elemIndexes x ts).zip ((t.addrs.map (· / 8)).zip vs)) j

/-- SCATTER (R218 to R225). -/
def execScatter (q : QCmd) (f : ScatterF) (s : State) : Host.Outcome State Fault Refusal :=
  onDev (coreKnown q.core) (runCmd q [3] true false [] [] (scatterBody f)) s

/-! ### EPILOGUE -/

/-- An operand or output tensor of an EPILOGUE, of `n` elements (R92). -/
def argTens (a : TensorArg) (dst : Bool) (n ztid : Nat) (zorg : Int) (j : Job) : Except Stop (Tens × Job) :=
  match a with
  | .desc h =>
    (match readDesc j.d j.ctx (steppedVal j.loops h) with
     | .error e => .error e
     | .ok x =>
       if x.idxEn ∨ x.elem ≠ 0 ∨ (dst ∧ !x.write) then failCls descUse
       else
         let t := descTens x false
         if t.count ≠ n then failCls cmdOperand else .ok (t, j.tableRead (steppedVal j.loops h)))
  | .bench op fmt panel scale =>
    match benchTens j.loops fmt panel dst op scale ztid zorg.toNat with
    | .error e => .error e
    | .ok t =>
      if t.count ≠ n then failCls cmdOperand
      else if !dst then .ok (t, j)
      else match zhvRangeCheck zorg n with
        | .error e => .error e
        | .ok _ => .ok (t, j)

/-- The binary32 accumulator of an S5-order word (R74). -/
def s5Bits (r : JRow) (c : Nat) : Nat := (r.words.getD c 0).toNat % 2 ^ 32

/-- The value of a finished word of a row (R50, R95). -/
def wordVal (r : JRow) (c : Nat) : Val :=
  if r.s5 then decodeElem 7 (s5Bits r c) else spanVal (rowWord r c) r.anchor (rowSticky r c)

/-- The value that an EPILOGUE forms before the output rounding, with the flags of its binary32 steps
(R93 to R95). -/
def epiVal (op : EpiOp) (r : JRow) (c : Nat) (a : Val × Bool) : Val × BitVec 5 :=
  let w := convert 7 .rne false 0 a.2 a.1
  match op with
  | .none => (wordVal r c, 0)
  | .add =>
    if r.s5 then
      let s := fAdd 7 .rne false (s5Bits r c) w.bits
      (decodeElem 7 s.1, w.flags ||| s.2)
    else
      (match a.1 with
       | .fin _ _ _ => (spanVal (rowWord r c + enterFloor r.anchor a.1) r.anchor (rowSticky r c), 0)
       | v => (spanVal (rowWord r c) r.anchor ((rowSticky r c).or (stickyOf v)), 0))
  | .mul =>
    let v := if r.s5 then ⟨s5Bits r c, false, false, false, 0⟩ else convert 7 .rne false 0 false (wordVal r c)
    let p := fMul 7 .rne false v.bits w.bits
    (decodeElem 7 p.1, v.flags ||| w.flags ||| p.2)

/-- Whether a magnitude reaches 2^BOUND (R99). -/
def boundTrips (bound : BitVec 16) (fmt : Nat) (v : Val) : Bool :=
  let b : Int := if bound = 0x8000#16 then (if fmt = 9 then 31 else (fmtP fmt).bound) else bound.toInt
  match v with
  | .fin _ m e => m != 0 && leScaled 1 b m e
  | _ => false

/-- The numeric events of an output element: class and ERR.ADDR (R99, R100). -/
def epiEvents (f : EpilogueF) (fmt : Nat) (i c : Nat) (v : Val) : List (Nat × Nat) :=
  let a := tileAddr (f.joistBase / 256) (f.joistBase % 256 + i) c
  (if boundTrips f.bound fmt v then [(matBound, a)] else []) ++ (if v.isFin then [] else [(matNonfinite, a)])

/-- The copy of a joist row on the other tile of its sister pair (R101). -/
def sisterRow (row : Nat) : Nat := row / 512 * 512 + (row + 256) % 512

/-- Row tags that an EPILOGUE with KEEP = 0 clears (R97), both copies of a sister pair. -/
def releaseRows (core jb m : Nat) (both : Bool) (d : Dev) : Dev :=
  let bases := if both then [jb, sisterRow jb] else [jb]
  bases.foldl (fun d b => (List.range m).foldl (fun d i =>
    setJrow core (b + i) { jrow d core (b + i) with valid := false } d) d) d

/-- The row whose poison an EPILOGUE meets in place of row `i`: the row, or for a row with the sister mark its
copy, which is read too (R102). -/
def epiPoison (f : EpilogueF) (j : Job) (i : Nat) : Option Nat :=
  let x := jrow j.d j.core (f.joistBase + i)
  if x.poison then some (f.joistBase + i)
  else if x.sister && (jrow j.d j.core (sisterRow (f.joistBase + i))).poison then some (sisterRow (f.joistBase + i))
  else none

/-- The checks of an EPILOGUE's rows (R63, R76, R85, R102, R103): rows below M_SIZE. -/
def epiRows (f : EpilogueF) (r : Red) (j : Job) : Except Stop (List JRow) :=
  let rows := (List.range f.mSize).map (fun i => jrow j.d j.core (f.joistBase + i))
  let copies := (List.range f.mSize).map (fun i => jrow j.d j.core (sisterRow (f.joistBase + i)))
  if rows.any (fun x => !x.valid || x.rslot != f.rslot) then failRedAt spanSlot f.rslot j.d
  else if rows.any (·.mixed) then failCls matOperand
  else
    match rows.findSome? (fun x => match outputCheck f.rslot r x.anchor x.redo x.s5 j.d with
        | .error e => some e
        | .ok _ => none) with
    | some e => .error e
    | none =>
      if rows.any (·.sister) then
        (match blockDiffer rows copies with
         | some x => sisterFail (f.joistBase / 512 * 2) (f.joistBase % 256 + x.1) x.2 none j.d
         | none => .ok rows)
      else .ok rows

/-- The operand elements of an EPILOGUE: value, signalling, poison address. -/
def epiOperand (f : EpilogueF) (n : Nat) (j : Job) : Except Stop (List ((Val × Bool) × Option Nat) × Job) :=
  if f.op = .none then .ok (List.replicate n ((.fin false 0 0, false), none), j)
  else
    match f.opnd with
    | none => failCls cmdDecode
    | some a =>
      match argTens a false n 0 0 j with
      | .error e => .error e
      | .ok (t, j) =>
        match readTens t j with
        | .error e => .error e
        | .ok (es, j) =>
          .ok ((es.zip t.addrs).map (fun p =>
            ((elemVal t p.1, isSignalling t.fmt p.1.bits), if p.1.poison then some (elemAddr p.2) else none)), j)

/-- The regions of a tensor's elements, device addresses translated for the poison that they receive. -/
def tensRegion (t : Tens) (a : Int) (j : Job) : List Region :=
  let eb := elemBytes t.width a
  if t.bench then [Region.bench eb.1 eb.2]
  else match xlate j.unit j.ctx true (a / 8) j.d with
    | .ok (host, pa, _, _) => [Region.mem host pa eb.2]
    | .error _ => []

/-- The rows that an EPILOGUE reads, both copies of a sister pair (R102). -/
def epiRegions (f : EpilogueF) (rows : List JRow) : List Region :=
  Region.rows f.joistBase f.mSize ::
    (if rows.any (·.sister) then [Region.rows (sisterRow f.joistBase) f.mSize] else [])

/-- What an EPILOGUE writes and reports once its values are known. -/
def epiWrite (f : EpilogueF) (r : Red) (t : Tens) (g : GaugeCfg) (rows : List JRow)
    (ops : List ((Val × Bool) × Option Nat)) (j : Job) : Except Stop Job :=
  let cells := (List.range f.mSize).flatMap (fun i => (List.range f.nSize).map (fun c => (i, c)))
  let outs := (cells.zip ops).map (fun (p : (Nat × Nat) × ((Val × Bool) × Option Nat)) =>
    (p.1, epiVal f.op (rows.getD p.1.1 {}) p.1.2 p.2.1))
  let direct := r.path == 2 && f.op == .none && t.fmt == 9
  let cv := if direct then { f.conv with sat := true } else f.conv
  let events := outs.flatMap (fun o => epiEvents f t.fmt o.1.1 o.1.2 o.2.1)
  let j := { j with d := addFlags j.ctx (orFlags (outs.map (·.2.2))) j.d }
  match withDsts (benchRegions t) (convWrite t cv g (outs.map (fun o => Lane.val o.2.1 false)) j) with
  | .error e => .error e
  | .ok j =>
    match (if direct && outs.any (fun o => beyondInt32 o.2.1 1) then setRedSat f.rslot j else .ok j) with
    | .error e => .error e
    | .ok j =>
      let j := if f.keep then j
        else { j with
          d := releaseRows j.core f.joistBase f.mSize (rows.any (·.sister)) j.d
          dsts := epiRegions f rows ++ j.dsts }
      match (if f.checkFault then events else []) with
      | (cls, a) :: rest =>
        let d := rest.foldl (fun d e => raiseRec (j.record e.1 1 e.2 0) d) j.d
        .error (.err { cls := cls, addr := a, dsts := j.dsts, dev := some d })
      | [] => .ok { j with d := events.foldl (fun d e => raiseRec (j.record e.1 1 e.2 0) d) j.d }

/-- EPILOGUE's work. -/
def epilogueBody (f : EpilogueF) (j : Job) : Except Stop Job :=
  if 1023 < f.joistBase ∨ 1023 < f.rslot ∨ f.mSize < 1 ∨ 32 < f.mSize ∨ f.nSize < 1 ∨ 32 < f.nSize ∨ 2 ^ 24 ≤ f.ztid then
    failCls cmdDecode
  else if f.joistBase % 32 ≠ 0 then failCls matOperand
  else
    let n := f.mSize * f.nSize
    match argTens f.dst true n f.ztid (steppedVal j.loops f.zorg) j with
    | .error e => .error e
    | .ok (t, j) =>
      match gaugeCheck f.conv.gslot t.fmt t.panel j with
      | .error e => .error e
      | .ok (g, j) =>
        match redLoad j.unit j.ctx f.rslot j.d with
        | .error e => .error e
        | .ok (r, d) =>
          let j := { j with d := d }
          match epiOperand f n j with
          | .error e => .error e
          | .ok (ops, j) =>
            match epiRows f r j with
            | .error e => .error e
            | .ok rows =>
              let j := { j with rds := epiRegions f rows ++ j.rds }
              let bad := ((List.range n).zip (ops.zip t.addrs)).filterMap
                (fun (p : Nat × (((Val × Bool) × Option Nat) × Int)) =>
                  match epiPoison f j (p.1 / f.nSize) with
                  | some a => some (a, p.2.2)
                  | none => p.2.1.2.map (fun a => (a, p.2.2)))
              match bad with
              | (a0, _) :: _ =>
                .error (.err { cls := poisonCls, addr := a0, dsts := t.addrs.flatMap (fun a => tensRegion t a j),
                               pois := bad.flatMap (fun b => tensRegion t b.2 j), dev := some j.d,
                               gauge := [gaugePoison g bad.length] })
              | [] => epiWrite f r t g rows ops j

/-- EPILOGUE (R92 to R105). -/
def execEpilogue (q : QCmd) (f : EpilogueF) (s : State) : Host.Outcome State Fault Refusal :=
  onDev (coreKnown q.core) (runCmd q [3] true false [] [] (epilogueBody f)) s

/-! ### JRAW_STORE -/

/-- JRAW_STORE's work: rows and tags to 544-byte records, poison with them (R234). -/
def rawStoreBody (dst : Stepped) (joistBase rows : Nat) (j : Job) : Except Stop Job :=
  match rawCheck (steppedVal j.loops dst) joistBase rows with
  | .error e => .error e
  | .ok b =>
    let d := (List.range rows).foldl (fun d i =>
      let r := jrow j.d j.core (joistBase + i)
      let d := benchWrite j.core (b + 544 * i) (packRow r) d
      if r.poison then benchPoison j.core (b + 544 * i) 544 d else d) j.d
    .ok { j with
      d := d, rds := Region.rows joistBase rows :: j.rds
      writes := (b, 544 * rows) :: j.writes, dsts := Region.bench b (544 * rows) :: j.dsts }

/-- JRAW_STORE (R73). -/
def execJrawStore (q : QCmd) (dst : Stepped) (joistBase rows : Nat) (s : State) :
    Host.Outcome State Fault Refusal :=
  onDev (coreKnown q.core) (runCmd q [3] true false [] [] (rawStoreBody dst joistBase rows)) s

end Sys2Proof.Machine
end

