-- ==== Sys2Proof/Machine/SpanQ.lean ====
section
/-!
DEFINITION. The S queue's reduction and training commands (08 R193): SPAN_OPEN, SPAN_ADD, SPAN_RELEASE (03
R53, R63, R66), ZSTEP, ZFILL and GAUGE_RESET (06 R138, R141, R147).
-/

namespace Sys2Proof.Machine

/-- SPAN_OPEN (R51, R53, R65, R74, R76). The flags that it names stand in the record: they are translated when
the reduction needs them, and a failed translation sets RED.ERROR (R314). -/
def execSpanOpen (q : QCmd) (f : SpanOpenF) (s : State) : Host.Outcome State Fault Refusal :=
  onDev (coreKnown q.core) (runCmd q [3] true false [] [] (fun j =>
    match spanOpenRed j.unit j.ctx f j.d with
    | .error e => .error e
    | .ok d => .ok { j with d := d })) s

/-! ### SPAN_ADD -/

/-- The words of a share in order: joist words row by row, column 0 first, or span records. -/
def addWords (share : Share) (j : Job) : Except Stop (List (SpanRec × Bool) × Option Nat × Job) :=
  match share with
  | .rows jb n =>
    (match readShare share j with
     | .error e => .error e
     | .ok (_, po, j) =>
       .ok ((shareRows jb n j).flatMap (fun x => (List.range 32).map (fun c => (rowSpan x.2 c, x.2.s5))), po, j))
  | .records _ _ =>
    match readShare share j with
    | .error e => .error e
    | .ok (rs, po, j) => .ok (rs.map (fun r => (r, false)), po, j)

/-- The checks of one word before it leaves the core (R63, R66, R76). -/
def leaveCheck (slot : Nat) (r : Red) (x : SpanRec × Bool) (d : Dev) : Except Stop Unit :=
  if !x.1.valid || x.1.rslot != slot then failRedAt spanSlot slot d
  else match outputCheck slot r x.1.anchor x.1.redo x.2 d with
    | .error e => .error e
    | .ok _ =>
      if widthOk r.w x.1.i then .ok ()
      else .error (.err { cls := spanWidth, addr := slot, red := some slot, dev := some d })

/-- Adds words to targets in order. -/
def spanAddAll (slot : Nat) (r : Red) : List ((SpanRec × Bool) × Int) → Job → Except Stop Job
  | [], j => .ok j
  | p :: ps, j =>
    match leaveCheck slot r p.1 j.d with
    | .error (.err e) => .error (.err { e with dsts := j.dsts ++ e.dsts })
    | .error e => .error e
    | .ok _ =>
      match saddAt p.2 p.1.1 j with
      | .error e => .error e
      | .ok j => spanAddAll slot r ps j

/-- SPAN_ADD's work. -/
def spanAddBody (rslot : Nat) (share : Share) (dst element : Stepped) (j : Job) : Except Stop Job :=
  if 1023 < rslot then failCls cmdDecode
  else
    let h := steppedVal j.loops dst
    match readDesc j.d j.ctx h with
    | .error e => .error e
    | .ok x =>
      let j := { j.tableRead h with atom := true }
      if x.idxEn ∨ !x.write ∨ x.space then failCls descUse
      else if x.elem ≠ 1 then failAddr deckOperand (toTwos 64 (steppedVal j.loops element))
      else
        match addWords share j with
        | .error e => .error e
        | .ok (_, some a, _) => failAddr poisonCls a
        | .ok (ws, none, j) =>
          let e := steppedVal j.loops element
          let t := descTens x false
          if e < 0 ∨ (t.count : Int) < e + ws.length then failAddr deckOperand (max e t.count).toNat
          else
            match redLoad j.unit j.ctx rslot j.d with
            | .error e => .error e
            | .ok (r, d) =>
              spanAddAll rslot r (ws.zip ((t.addrs.drop e.toNat).map (· / 8))) { j with d := d }

/-- SPAN_ADD (R63, R66, R265). -/
def execSpanAdd (q : QCmd) (rslot : Nat) (share : Share) (dst element : Stepped) (s : State) :
    Host.Outcome State Fault Refusal :=
  onDev (coreKnown q.core) (runCmd q [3] true false [] [] (spanAddBody rslot share dst element)) s

/-- SPAN_RELEASE (08 R193): clears RED.OPEN of a resolved record with no post pending. -/
def execSpanRelease (q : QCmd) (rslot : Nat) (s : State) : Host.Outcome State Fault Refusal :=
  onDev (coreKnown q.core) (runCmd q [3] true false [] [] (fun j =>
    if 1023 < rslot then failCls cmdDecode
    else
      match redLoad j.unit j.ctx rslot j.d with
      | .error e => .error e
      | .ok (r, d) =>
        if !r.resolved ∨ r.pend ≠ 0 then failRedAt spanSlot rslot d
        else
          match redStore j.unit j.ctx rslot { r with isOpen := false } d with
          | .error e => .error e
          | .ok d =>
            .ok { j with d := { d with parts := mapPut 0 (j.ctx * 1024 + rslot) 0 d.parts } })) s

/-! ### ZSTEP and ZFILL -/

/-- ZSTEP (R138). -/
def execZstep (q : QCmd) (f : ZstepF) (s : State) : Host.Outcome State Fault Refusal :=
  onDev (coreKnown q.core) (runCmd q [3] true false [] [] (fun j =>
    let j := { j with zold := some j.zstep }
    match f with
    | .set v => .ok { j with d := modCore j.core (fun c => { c with zstep := v }) j.d }
    | .inc =>
      if j.zstep = BitVec.allOnes 64 then failCls zhvRange
      else .ok { j with d := modCore j.core (fun c => { c with zstep := c.zstep + 1 }) j.d })) s

/-- The random values of a ZFILL. -/
def zfillVals (f : ZfillF) (j : Job) : List Nat :=
  (List.range f.n).map (fun n =>
    zhevudValue j.seed f.stream j.zstep f.ztid ((steppedVal j.loops f.zorg).toNat + n))

/-- The bytes that a ZFILL writes over `old` (R141): 16-bit words, or mask bits from bit 0 on. -/
def zfillBytes (f : ZfillF) (old : Nat) (vals : List Nat) : List Byte :=
  if f.mask then leBytes ((f.n + 7) / 8) (old / 2 ^ f.n * 2 ^ f.n
    + bitMap (((List.range f.n).zip vals).filterMap (fun (p : Nat × Nat) => if f.thresh ≤ p.2 then some p.1 else none)))
  else vals.flatMap (leBytes 2)

/-- ZFILL's work. -/
def zfillBody (f : ZfillF) (j : Job) : Except Stop Job :=
  if 2 ^ 24 < f.n ∨ 65535 < f.thresh ∨ 2 ^ 24 ≤ f.ztid then failCls cmdDecode
  else if f.n = 0 then .ok j
  else
    let a := steppedVal j.loops f.dst
    let len := if f.mask then (f.n + 7) / 8 else 2 * f.n
    match zhvRangeCheck (steppedVal j.loops f.zorg) f.n with
    | .error e => .error e
    | .ok _ =>
      if a < 0 ∨ a % (if f.mask then 8 else 2) ≠ 0 ∨ (benchSize : Int) < a + len then
        failCls cmdBenchRange
      else
        let bs := zfillBytes f (benchLe j.d j.core a.toNat len) (zfillVals f j)
        .ok { j with
          d := benchWrite j.core a.toNat bs j.d
          writes := (a.toNat, len) :: j.writes
          dsts := Region.bench a.toNat len :: j.dsts }

/-- ZFILL (R141). -/
def execZfill (q : QCmd) (f : ZfillF) (s : State) : Host.Outcome State Fault Refusal :=
  onDev (coreKnown q.core) (runCmd q [3] true false [] [] (zfillBody f)) s

/-! ### GAUGE_RESET -/

/-- The default bin width code and EBASE of a format (R147). -/
def gaugeDefault (fmt : Nat) (panel : Bool) : Nat × Int :=
  if panel then (2, -120)
  else if fmt = 0 ∨ fmt = 7 then (2, -116)
  else if fmt = 8 then (3, -244)
  else if fmt = 1 then (0, -23)
  else if fmt = 2 then (0, -15)
  else if fmt = 3 then (0, -8)
  else if fmt = 4 then (0, 0)
  else (0, 1)

/-- A slot with its counters zero (R145). -/
def gaugeSlotBytes (fmt : Nat) (panel : Bool) (w : Nat × Int) : List Byte :=
  List.replicate 288 0
    ++ leBytes 8 (packFields [(0, 32), (fmt, 4), (bit01 panel, 1), (w.1, 2), (0, 1), (toTwos 16 w.2, 16)])
    ++ List.replicate 24 0

/-- GAUGE_RESET's work. -/
def gaugeResetBody (f : GaugeResetF) (j : Job) : Except Stop Job :=
  let s := gaugeSlotNo f.gslot f.fmt
  if !fmtKnown f.fmt ∨ 3 < f.ewidth ∨ (f.panel ∧ !fmtPanelOk f.fmt) ∨ 65535 < f.gslot then failCls cmdDecode
  else if (10 ≤ s ∧ s ≤ 15) ∨ (ctxAt j.d j.ctx).gaugeCount ≤ s then failCls gaugeSlotErr
  else
    let w := if f.ebase = 0x8000#16 then gaugeDefault f.fmt f.panel else (f.ewidth, f.ebase.toInt)
    let bs := gaugeSlotBytes f.fmt f.panel w
    let va := gaugeAddr j.d j.ctx s
    putWrites false ((List.range 5).map (fun i : Nat =>
      (⟨((va + 64 * i : Nat) : Int) * 8, 512, leAt bs (64 * i) 64⟩ : BitWrite))) j

/-- GAUGE_RESET (R147). -/
def execGaugeReset (q : QCmd) (f : GaugeResetF) (s : State) : Host.Outcome State Fault Refusal :=
  onDev (coreKnown q.core) (runCmd q [3] true false [] [] (gaugeResetBody f)) s

end Sys2Proof.Machine
end

