-- ==== Sys2Proof/Machine/GlueUps.lean ====
section
/-!
DEFINITION. ATOMIC and glue-ups (11 R264, R268 to R285): the commands of the S queue, and the events of a
glue-up's coordinator.
-/

namespace Sys2Proof.Machine

/-! ### ATOMIC -/

/-- One operation of an ATOMIC with its operands as read at issue. -/
structure AtomTarget where
  va : Int
  opnd : Nat
  cmp : Nat
  ret : Option Nat
  deriving DecidableEq, Repr

/-- ELEM that an operation needs of its target descriptor (R264), if any. -/
def atomElem : AtomicOp → Option Nat
  | .sadd | .sinit => some 1
  | .maxi | .mini => some 2
  | _ => none

/-- Whether an operation takes an operand, and whether it returns an old value (R263). -/
def atomOperand (op : AtomicOp) : Bool := op != .ld && op != .sinit
def atomReturns (op : AtomicOp) : Bool := op != .st && op != .sadd && op != .sinit

/-- LD and ST are plain accesses outside a glue-up (R263). -/
def atomPlain (op : AtomicOp) : Bool := op == .ld || op == .st

/-- A bench run of `n` operands of `w` bytes: its base, if it lies in the bench. -/
def benchRun (a : Int) (len : Nat) : Except Stop Nat :=
  if a < 0 ∨ (benchSize : Int) < a + len then failCls cmdBenchRange else .ok a.toNat

/-- The targets of an ATOMIC (R264, R268). -/
def atomTargets (f : AtomicF) (x : Desc192) (e : Nat) : Except Stop (List Int) :=
  let vas := ((descTens x false).addrs.drop e).take f.n |>.map (· / 8)
  if vas.length < f.n then failAddr deckOperand (e + vas.length)
  else
    match ((List.range f.n).zip vas).find? (fun (p : Nat × Int) =>
        decide (p.2 % f.width ≠ 0) || decide (p.2 < x.allocBase) || decide ((x.allocLimit : Int) < p.2 + f.width)) with
    | some p => failAddr deckOperand (e + p.1)
    | none => .ok vas

/-- The span record of an SADD may leave the core only at the final anchor (R63, R66). -/
def saddLeave (opnd : Nat) (j : Job) : Except Stop Job :=
  let x := parseSpan (leBytes 32 opnd)
  match redLoad j.unit j.ctx x.rslot j.d with
  | .error e => .error e
  | .ok (r, d) =>
    match leaveCheck x.rslot r ({ x with valid := true }, false) d with
    | .error e => .error e
    | .ok _ => .ok { j with d := d }

def saddLeaveAll : List Nat → Job → Except Stop Job
  | [], j => .ok j
  | o :: os, j =>
    match saddLeave o j with
    | .error e => .error e
    | .ok j => saddLeaveAll os j

/-- The checks and operands of an ATOMIC at issue (R264, R268, R270). -/
def atomPlan (f : AtomicF) (j : Job) : Except Stop (List AtomTarget × Job) :=
  if !(atomicWidths f.op).contains f.width ∨ 65536 < f.n ∨ 1023 < f.rslot then failCls cmdDecode
  else if f.n = 0 then .ok ([], j)
  else
    let h := steppedVal j.loops f.dst
    let e := steppedVal j.loops f.element
    match readDesc j.d j.ctx h with
    | .error e => .error e
    | .ok x =>
      let elemOk := match atomElem f.op with
        | some k => x.elem == k
        | none => true
      if x.idxEn ∨ x.space ∨ (f.op ≠ .ld ∧ !x.write) then failCls descUse
      else if e < 0 ∨ (2 : Int) ^ 44 ≤ e ∨ !elemOk then failAddr deckOperand (toTwos 64 e)
      else
        let j := { j.tableRead h with atom := !atomPlain f.op || (openGlue j.d j.core).isSome }
        let len := f.n * f.width
        let sv := steppedVal j.loops
        let lenO := if atomOperand f.op then len else 0
        let lenC := if f.op = .cas then len else 0
        let lenR := if atomReturns f.op && f.ret.isSome then len else 0
        match atomTargets f x e.toNat, benchRun (if lenO = 0 then 0 else sv f.opnd) lenO,
            benchRun (if lenC = 0 then 0 else sv f.cmp) lenC,
            benchRun (if lenR = 0 then 0 else sv (f.ret.getD ⟨0, 0, 0, 0, 0⟩)) lenR with
        | .error e, _, _, _ => .error e
        | _, .error e, _, _ => .error e
        | _, _, .error e, _ => .error e
        | _, _, _, .error e => .error e
        | .ok vas, .ok o, .ok c, .ok r =>
          if benchPoisoned j.d j.core o lenO then failAddr poisonCls o
          else if benchPoisoned j.d j.core c lenC then failAddr poisonCls c
          else
            let ts := ((List.range f.n).zip vas).map (fun (p : Nat × Int) =>
              { va := p.2
                opnd := if lenO = 0 then 0 else benchLe j.d j.core (o + p.1 * f.width) f.width
                cmp := if lenC = 0 then 0 else benchLe j.d j.core (c + p.1 * f.width) f.width
                ret := if lenR = 0 then none else some (r + p.1 * f.width) : AtomTarget })
            let j := { j with reads := (o, lenO) :: (c, lenC) :: j.reads }
            match (if f.op = .sadd then saddLeaveAll (ts.map (·.opnd)) j else .ok j) with
            | .error e => .error e
            | .ok j => .ok (ts, { j with writes := if lenR = 0 then j.writes else (r, lenR) :: j.writes })

/-- What SINIT writes for a reduction of the context (R266), failing that reduction otherwise. -/
def sinitOpnd (u ctx slot : Nat) (d : Dev) : Except Stop (Nat × Dev) :=
  match redLoad u ctx slot d with
  | .error e => .error e
  | .ok (r, d) =>
    match sinitRec slot r with
    | .error cls => failRedAt cls slot d
    | .ok x => .ok (ofLe (packSpan x), d)

/-- The deck operation of an ATOMIC. -/
def atomOp (f : AtomicF) (t : AtomTarget) (opnd : Nat) : DeckOp :=
  { op := f.op, width := f.width, opnd := opnd, cmp := t.cmp, bmask := f.bmask.toNat }

/-- The operations of an ATOMIC outside a glue-up, in ascending ordinal order (R269). -/
def atomRun (f : AtomicF) : List AtomTarget → Job → Except Stop Job
  | [], j => .ok j
  | t :: ts, j =>
    let fail := fun (e : Err) => (.error (.err { e with dsts := j.dsts ++ e.dsts, dev := some (e.dev.getD j.d) }) :
      Except Stop Job)
    match (if f.op = .sinit then sinitOpnd j.unit j.ctx f.rslot j.d else .ok (t.opnd, j.d)) with
    | .error (.err e) => fail e
    | .error e => .error e
    | .ok (o, d) =>
      match vAct j.unit j.ctx t.va (atomOp f t o) d with
      | .error (.err e) => fail e
      | .error e => .error e
      | .ok (.error e, d) => fail { deckErr t.va (parseSpan (leBytes 32 o)).rslot e with dev := some d }
      | .ok (.ok r, d) =>
        let d := match t.ret with
          | some a => benchWrite j.core a (leBytes f.width r.1) d
          | none => d
        let back := match t.ret with
          | some a => [Region.bench a f.width]
          | none => []
        atomRun f ts (if f.op = .ld then { j with d := d, dsts := back ++ j.dsts, rds := r.2 :: j.rds }
          else { j with d := d, dsts := back ++ r.2 :: j.dsts })

/-! ### Staging of a glue-up's actions (R274, R279 to R281) -/

/-- Whether a new mark finds the side buffer full or the line's set without a way to hold (R275, R279,
R490). -/
def markFull (d : Dev) (line : Nat) : Bool :=
  let k := homeDeck d.hbmc false line
  let all := d.glues.flatMap (·.marks) |>.filter (fun l => homeDeck d.hbmc false l == k)
  let ways := min 8 (12 - mapGet 0 d.deck.retired (k * 8192 + deckSet line))
  decide (512 ≤ all.length) || decide (ways ≤ (all.filter (fun l => deckSet l == deckSet line)).length)

/-- What staging an action answers. -/
inductive Staged where
  | ok (g : Glue) (d : Dev)
  | conflict (reason : Nat)
  | final (reason : Nat)
  | fault (e : Err)
  | wait

/-- The current value of a line as a glue-up sees it. -/
def glueLine (d : Dev) (g : Glue) (line : Nat) : List Byte :=
  match g.staged.find? (fun p => p.1 == line) with
  | some p => leBytes 64 p.2.toNat
  | none => readMem d false line 64

/-- Replaces or adds a staged value. -/
def putStaged (line : Nat) (v : BitVec 512) (l : List (Nat × BitVec 512)) : List (Nat × BitVec 512) :=
  if l.any (fun p => p.1 == line) then l.map (fun p => if p.1 = line then (line, v) else p) else l ++ [(line, v)]

/-- The mark that an action's line needs: the reason of an abort, if it meets another glue-up (R279). -/
def markClash (d : Dev) (g : Glue) (line : Nat) : Option Nat :=
  if g.marks.contains line then none
  else match d.glues.find? (fun o => o.id != g.id && o.marks.contains line) with
    | some o => if o.clamped then some 3 else some 2
    | none => if markFull d line then some 4 else none

/-- Puts a glue-up back among the open ones. -/
def putGlue (g : Glue) (d : Dev) : Dev :=
  { d with glues := d.glues.map (fun o => if o.id = g.id then g else o) }

/-- Stages one action. An SINIT whose reduction record another glue-up holds waits for the record (R279). -/
def stageAct (g : Glue) (a : GlueAct) (d : Dev) : Staged :=
  let line := lineOf a.pa
  match markClash d g line with
  | some r => .conflict r
  | none =>
    if linePoisoned d false line then .final 7
    else
      match (if a.op = .sinit then sinitOpnd (g.core / 8) g.ctx a.rslot (putGlue { g with marks := [] } d)
        else .ok (a.opnd, d)) with
      | .error (.err e) => .fault e
      | .error _ => .wait
      | .ok (o, d) =>
        let d := deckTake false line false d
        let old := glueLine d g line
        let op : DeckOp := { op := a.op, width := a.width, opnd := o, cmp := a.cmp, bmask := a.bmask.toNat }
        match lineAct op (a.pa % 64) old with
        | .error e => .fault (deckErr a.pa (parseSpan (leBytes 32 o)).rslot e)
        | .ok (t, new, ovf) =>
          if a.op == .cas && a.guard && t != a.cmp then .final 6
          else
            .ok { g with
              marks := if g.marks.contains line then g.marks else g.marks ++ [line]
              staged := putStaged line (BitVec.ofNat 512 (ofLe new)) g.staged
              olds := if g.olds.any (fun p => p.1 == line) then g.olds
                else g.olds ++ [(line, BitVec.ofNat 512 (ofLe old))]
              bad := if ovf then a.pa :: g.bad else g.bad
              rets := match a.ret with
                | some r => g.rets ++ [(r, a.width, t)]
                | none => g.rets } d

/-- A glue-up with nothing of its attempt left (R282). -/
def dropAttempt (g : Glue) : Glue := { g with marks := [], staged := [], olds := [], rets := [], bad := [], acked := [] }

/-- The record of an action's command error: the ATOMIC's tag and place (R281, R483). -/
def glueRecord (g : Glue) (tag : BitVec 32) (e : Err) (d : Dev) : ErrRec :=
  let s := queueAt d g.core 3
  let f := (s.inflight.find? (fun f => f.glue && f.tag == tag)).getD {}
  { cls := e.cls, kind := 2, ctx := some g.ctx, unit := unitQueue g.core 3, tag := tag, addr := e.addr,
    detail := cmdDetail f.loops f.pc s.count e.hi }

/-- Stages actions from ordinal `n` on, and does what an abort asks for (R281); one that must wait leaves the state `d0`
that the attempt began from. -/
def stageAll (d0 : Dev) : Nat → List GlueAct → Glue → Dev → Dev
  | _, [], g, d => putGlue g d
  | n, a :: as, g, d =>
    match stageAct g a d with
    | .ok g d => stageAll d0 (n + 1) as g d
    | .wait => d0
    | .conflict r => putGlue (glueAbort d r g) d
    | .final r => putGlue { dropAttempt g with phase := .aborted, outcome := r, action := n } d
    | .fault e =>
      let d := e.dev.getD d
      let d := match e.red with
        | some s => setRedError (g.core / 8) g.ctx s d
        | none => d
      faultCtx g.ctx (glueRecord g a.tag e d) d

/-! ### The end of a glue-up (R277, R278) -/

/-- The status word. -/
def glueStatus (g : Glue) : Nat :=
  packFields [(g.outcome, 4), (g.last, 4), (g.attempts, 3), (bit01 g.clamped, 1), (0, 4), (g.action, 8)]

/-- The flights of a finished glue-up are free to complete; the last, GLUE_COMMIT, sets DONE or FAIL. -/
def freeFlights (done : Option (Option Nat)) : List Flight → List Flight
  | [] => []
  | f :: fs =>
    if f.glue then
      let g := { f with held := false, imm := true, glue := false }
      (if fs.any (·.glue) then g else { g with done := done.getD f.done }) :: freeFlights done fs
    else f :: freeFlights done fs

/-- A glue-up is open no more: its lines are free, and the context records that waited for them are written (R279). -/
def endGlue (id : Nat) (d : Dev) : Dev := syncDue { d with glues := d.glues.filter (fun o => o.id != id) }

/-- A glue-up ends: STATUS, on a commit the returned values, and the completion of its commands. -/
def finishGlue (g : Glue) (d : Dev) : Dev :=
  let d := if g.outcome = 0 then
      g.rets.foldl (fun d r => benchWrite g.core r.1 (leBytes r.2.1 r.2.2) d) d
    else d
  let d := benchWrite g.core g.status (leBytes 8 (glueStatus g)) d
  let d := endGlue g.id d
  let d := modQueue g.core 3 (fun s => { s with
    inflight := freeFlights (if g.outcome = 0 then none else some g.fail) s.inflight }) d
  clampMeet g.core (drainQueue g.ctx g.core 3 d)

/-- The open glue-up of an S queue whose GLUE_COMMIT has issued goes on: it ends after a final abort, or
reaches its commit point with every action acknowledged (R280). -/
def settleGlue (id : Nat) (d : Dev) : Dev :=
  match d.glues.find? (fun g => g.id == id && g.commitIssued) with
  | none => d
  | some g =>
    match g.phase with
    | .aborted => finishGlue g d
    | .marking => putGlue { g with phase := .committed } d
    | _ => d

/-! ### The commands -/

/-- GLUE_BEGIN's work (R275, R276): one glue-up at once for an S queue. -/
def glueBeginBody (status : Stepped) (j : Job) : Except Stop Job :=
  let a := steppedVal j.loops status
  if a < 0 ∨ a % 8 ≠ 0 ∨ (benchSize : Int) < a + 8 then failCls cmdBenchRange
  else if j.d.glues.any (fun g => g.id == 4 * j.core + 3) then .error .wait
  else
    let s := queueAt j.d j.core 3
    let g : Glue := { id := 4 * j.core + 3, core := j.core, ctx := j.ctx, status := a.toNat, last := s.glueLast,
                      loops := s.loops, pc := s.pc }
    .ok { j with
      glueMark := true
      d := modQueue j.core 3 (fun s => { s with glueLast := 0 }) { j.d with glues := j.d.glues ++ [g] } }

/-- GLUE_BEGIN (R276). One that reruns after a switch has had its wait flags already, and does not wait or consume again
(R285). -/
def execGlueBegin (q : QCmd) (status : Stepped) (s : State) : Host.Outcome State Fault Refusal :=
  let rerun := (queueAt s.dev q.core 3).glueLast == 5
  let q := if rerun then { q with waitA := none, waitB := none } else q
  onDev (coreKnown q.core) (runCmd q [3] false false [] [] (glueBeginBody status)) s

/-- GLUE_COMMIT (R276, R277, R280). -/
def execGlueCommit (q : QCmd) (fail : Option Nat) (s : State) : Host.Outcome State Fault Refusal :=
  onDev (coreKnown q.core) (fun d => settleGlue (4 * q.core + 3) (runCmd q [3] false true [] fail.toList (fun j =>
    match openGlue j.d j.core with
    | none => failCls glueBody
    | some g =>
      let g := { g with commitIssued := true, fail := flightKey j.d j fail }
      let outs := (g.status, 8) :: g.acts.filterMap (fun a => a.ret.map (fun r => (r, a.width)))
      .ok { j with
        d := putGlue g j.d
        writes := outs
        dsts := outs.map (fun o => Region.bench o.1 o.2) }) d)) s

/-- The actions that an ATOMIC adds to a glue-up (R274, R276): translated at issue, HBM lines only. -/
def glueActs (f : AtomicF) (tag : BitVec 32) : List AtomTarget → Job → Except Stop (List GlueAct × Job)
  | [], j => .ok ([], j)
  | t :: ts, j =>
    match xlate j.unit j.ctx (f.op != .ld) t.va j.d with
    | .error e => .error e
    | .ok (host, pa, _, d) =>
      if host then failAddr glueSpace (toTwos 64 t.va)
      else
        match glueActs f tag ts { j with d := d } with
        | .error e => .error e
        | .ok (as, j) =>
          .ok ({ op := f.op, width := f.width, pa := pa, opnd := t.opnd, cmp := t.cmp, bmask := f.bmask,
                 rslot := f.rslot, guard := f.guard, ret := t.ret, tag := tag } :: as, j)

/-- Whether a list of actions keeps the limits of R274. -/
def glueFits (as : List GlueAct) : Bool :=
  let lines := as.foldl (fun (l : List Nat) a => if l.contains (lineOf a.pa) then l else lineOf a.pa :: l) []
  decide (lines.length ≤ 16) && decide (as.length ≤ 64)
    && decide ((as.filter (fun a => a.op != .ld && a.op != .st)).length ≤ 32)

/-- ATOMIC's work: alone, or as actions of the open glue-up. -/
def atomicBody (f : AtomicF) (j : Job) : Except Stop Job :=
  match atomPlan f j with
  | .error e => .error e
  | .ok (ts, j) =>
    match openGlue j.d j.core with
    | none => atomRun f ts j
    | some g =>
      match glueActs f j.cmd.tag ts j, (if f.op = .sinit then sinitOpnd j.unit j.ctx f.rslot j.d else .ok (0, j.d)) with
      | .error e, _ => .error e
      | _, .error .wait => .error .wait
      | .ok (as, j), _ =>
        let g := { g with acts := g.acts ++ as }
        if !glueFits g.acts then failCls glueLimit
        else .ok { j with d := putGlue g j.d, writes := [] }

/-- The actions that an ATOMIC has just added are sent to their decks, unless the attempt is over. -/
def sendActs (core before : Nat) (d : Dev) : Dev :=
  match openGlue d core with
  | some g => if g.phase == .marking then stageAll d before (g.acts.drop before) g d else d
  | none => d

/-- The number of actions of a core's open glue-up. -/
def actCount (d : Dev) (core : Nat) : Nat :=
  match openGlue d core with
  | some g => g.acts.length
  | none => 0

/-- ATOMIC (R268 to R270, R276). -/
def execAtomic (q : QCmd) (f : AtomicF) (s : State) : Host.Outcome State Fault Refusal :=
  onDev (coreKnown q.core) (fun d =>
    sendActs q.core (actCount d q.core) (runCmd q [3] true true [] [] (atomicBody f) d)) s

/-! ### Events of the coordinator -/

/-- The glue-up of a number. -/
def glueAt (d : Dev) (id : Nat) : Option Glue := d.glues.find? (fun g => g.id == id)

/-- GLUE_BACKOFF (R281): the replay, once GLUE_COMMIT has issued. -/
def backoffEnd (id : Nat) (d : Dev) : Dev :=
  match glueAt d id with
  | some g =>
    if g.phase == .backoff && g.commitIssued && decide (g.retryAt ≤ nowNs d) then
      let g := { dropAttempt g with phase := .marking, attempts := g.attempts + 1 }
      settleGlue id (stageAll d 0 g.acts g (putGlue g d))
    else d
  | none => d

/-- Lines of a glue-up's actions in ascending order (R283). -/
def glueLines (g : Glue) : List Nat :=
  (g.acts.foldl (fun (m : SMap Bool) a => mapPut false (lineOf a.pa) true m) []).map (·.1)

/-- Locks lines one at a time; a line that a committing or clamped glue-up holds, or a full set or side buffer,
makes the rest wait. Open glue-ups that mark a line abort with CONFLICT_CLAMP (R279, R283). -/
def lockLines (id : Nat) : List Nat → Dev → Dev × Bool
  | [], d => (d, true)
  | l :: ls, d =>
    match glueAt d id with
    | none => (d, false)
    | some g =>
      if g.marks.contains l then lockLines id ls d
      else if d.glues.any (fun o => o.id != id && (o.phase == .committed || o.clamped) && o.marks.contains l) then
        (d, false)
      else
        let d := { d with glues := d.glues.map (fun o =>
          if o.id ≠ id ∧ o.marks.contains l then glueAbort d 3 o else o) }
        if markFull d l then (d, false) else lockLines id ls (putGlue { g with marks := g.marks ++ [l] } d)

/-- Whether a glue-up is the one that its coordinator may run clamped now: none runs already, and its fourth
abort was the first of those that wait (R283). -/
def clampTurn (d : Dev) (g : Glue) : Bool :=
  g.clamped || d.glues.all (fun o => o.core / 8 != g.core / 8 || o.id == g.id
    || !(o.clamped || (o.phase == .waitClamp && (decide (o.clampAt < g.clampAt)
      || (o.clampAt == g.clampAt && decide (o.id < g.id))))))

/-- GLUE_CLAMPED (R283). -/
def clampedRun (id : Nat) (d : Dev) : Dev :=
  match glueAt d id with
  | some g =>
    if g.phase == .waitClamp && g.commitIssued && clampTurn d g then
      let g := { g with clamped := true, attempts := 5 }
      let r := lockLines id (glueLines g) (putGlue g d)
      match r.2, glueAt r.1 id with
      | true, some g =>
        let g := { dropAttempt g with marks := g.marks, phase := .marking }
        settleGlue id (stageAll r.1 0 g.acts g (putGlue g r.1))
      | _, _ => r.1
    else d
  | none => d

/-- The home decks that take part in a glue-up. -/
def glueDecks (d : Dev) (g : Glue) : List Nat :=
  g.marks.foldl (fun (l : List Nat) m =>
    let k := homeDeck d.hbmc false m
    if l.contains k then l else l ++ [k]) []

/-- Writes the values of lines homed at the given decks. -/
def putLines (decks : List Nat) (ls : List (Nat × BitVec 512)) (d : Dev) : Dev :=
  ls.foldl (fun d l => if decks.contains (homeDeck d.hbmc false l.1)
    then writeMem false l.1 (leBytes 64 l.2.toNat) d else d) d

/-- An abort with ERROR from the commit point on: every applied deck restores its old values (R280). -/
def errorAbort (g : Glue) (d : Dev) : Dev :=
  let d := putLines g.acked g.olds d
  finishGlue { dropAttempt g with phase := .aborted, outcome := 8 } d

/-- GLUE_APPLY (R280): a deck makes its staged values current, or reports that it cannot. -/
def glueApplyAt (id cluster : Nat) (ok oldLost : Bool) (d : Dev) : Dev :=
  match glueAt d id with
  | some g =>
    if g.phase == .committed && (glueDecks d g).contains cluster && !g.acked.contains cluster then
      if ok then
        let d := putLines [cluster] g.staged d
        let mine := g.bad.filter (fun a => homeDeck d.hbmc false a == cluster)
        let d := mine.foldl (fun d a =>
          spanOverflow g.ctx false (lineOf a) (parseSpan ((glueLine d g (lineOf a)).drop (a % 64))).rslot d) d
        putGlue { g with acked := g.acked ++ [cluster] } d
      else
        let lost := if oldLost then g.olds.filter (fun l => homeDeck d.hbmc false l.1 == cluster) else []
        let d := errorAbort g d
        lost.foldl (fun d l => poisonLine false l.1 (raiseFields deckUe (unitCluster cluster) none [(cluster, 5), (l.1, 48)] d)) d
    else d
  | none => d

def execGlueApply (id cluster : Nat) (ok oldLost : Bool) (s : State) : Host.Outcome State Fault Refusal :=
  onDev (decide (cluster < 20)) (glueApplyAt id cluster ok oldLost) s

/-- GLUE_RELEASE (R280): every participating deck has acknowledged; the lines are freed. -/
def glueReleaseAt (id : Nat) (d : Dev) : Dev :=
  match glueAt d id with
  | some g =>
    if g.phase == .committed && (glueDecks d g).all (fun k => g.acked.contains k) then finishGlue g d else d
  | none => d

def execGlueRelease (id : Nat) (s : State) : Host.Outcome State Fault Refusal :=
  onDev true (glueReleaseAt id) s

/-- Whether 50 µs after its fourth abort a glue-up has not committed (R283). -/
def glueLate (d : Dev) (g : Glue) : Bool :=
  decide (4 ≤ g.counted) && g.commitIssued && decide (g.clampAt + 50000 ≤ nowNs d)

/-- The GLUE_TIMEOUT record: coordinator and lines held (R289). -/
def glueTimeoutRec (g : Glue) (d : Dev) : Dev :=
  raiseFields glueTimeoutCls (unitCluster (g.core / 8)) (some g.ctx) [(g.core / 8, 5), (g.marks.length, 5)] d

/-- GLUE_TIMEOUT of an S queue's glue-up. -/
def glueTimeoutAt (id : Nat) (d : Dev) : Dev :=
  match glueAt d id with
  | some g => if glueLate d g then errorAbort g (glueTimeoutRec g d) else d
  | none => d

end Sys2Proof.Machine
end

