-- ==== Sys2Proof/Machine/Planer.lean ====
section
/-!
DEFINITION. The Planer (07 R154 to R173, 06 R149 to R152): PLANE and the pass over one panel.
-/

namespace Sys2Proof.Machine

/-! ### Exact values -/

/-- Sum of exact values; infinities and NaN as IEEE 754. -/
def Val.add : Val → Val → Val
  | .nan, _ => .nan
  | _, .nan => .nan
  | .inf a, .inf b => if a = b then .inf a else .nan
  | .inf a, _ => .inf a
  | _, .inf b => .inf b
  | .fin na ma ea, .fin nb mb eb =>
    let e := min ea eb
    let x : Int := (if na then -1 else 1) * (ma * 2 ^ (ea - e).toNat : Nat)
      + (if nb then -1 else 1) * (mb * 2 ^ (eb - e).toNat : Nat)
    if x = 0 then .fin (na && nb) 0 0 else .fin (decide (x < 0)) x.natAbs e

/-- The value times 2^k. -/
def Val.times2 (k : Int) : Val → Val
  | .fin n m e => .fin n m (e + k)
  | v => v

/-- The value negated. -/
def Val.negate : Val → Val
  | .fin n m e => .fin (!n) m e
  | .inf n => .inf (!n)
  | .nan => .nan

/-- Whether two values are equal, zeros of both signs alike. -/
def Val.same (a b : Val) : Bool := Val.le a b && Val.le b a

/-- The spacing exponent k of a 16-bit format at a value (R40, R150). -/
def spacing (fmt : Nat) (v : Val) : Int :=
  let emin := 1 - (fmtP fmt).bias
  (match v.expo with
   | some e => max (e - 1) emin
   | none => emin) - (fmtP fmt).p

/-- The exact value of a parameter with an offcut (R150). -/
def offcutVal (fmt : Nat) (p : Val) (o : Int) : Val :=
  match p with
  | .fin _ _ _ => p.add ((Val.fin (decide (o < 0)) o.natAbs 0).times2 (spacing fmt p - 7))
  | v => v

/-- m × 2^e rounded to an integer by RNE. -/
def roundInt (v : Val) : Int :=
  match v with
  | .fin n m e =>
    let k : Nat :=
      if 0 ≤ e then m * 2 ^ e.toNat
      else
        let q := 2 ^ (-e).toNat
        let lo := m / q
        let r := m % q
        if 2 * r < q ∨ (2 * r = q ∧ lo % 2 = 0) then lo else lo + 1
    if n then -(k : Int) else k
  | _ => 0

/-- The offcut of a new parameter (R151, R166): the remainder in units of 2^(k′ − 7), clamped to ±64. -/
def newOffcut (fmt : Nat) (pnew stored : Val) : Int :=
  match pnew with
  | .fin _ _ _ => max (-64) (min 64 (roundInt ((pnew.add stored.negate).times2 (7 - spacing fmt stored))))
  | _ => 0

/-! ### Reference order (R161) -/

/-- Binary32 steps under roundTiesToEven, with the flags that each raises (R36). -/
def rnMul (a b : Nat) : FlagRes := fMul 7 .rne false a b
def rnAdd (a b : Nat) : FlagRes := fAdd 7 .rne false a b
def rnFma (a b c : Nat) : FlagRes := fFma 7 .rne false a b c
def rnDiv (a b : Nat) : FlagRes := fDiv 7 .rne false a b
def rnSqrt (a : Nat) : FlagRes := fSqrt 7 .rne false a

/-- The update and the new moments of one element, as binary32 patterns, and the status flags that its steps raise; `v`
of SGD stays 0. -/
structure Update where
  u : Nat
  m : Nat
  v : Nat
  fl : BitVec 5 := 0
  deriving DecidableEq, Repr

/-- The flags of a list of steps. -/
def stepFlags (l : List FlagRes) : BitVec 5 := l.foldl (fun a x => a ||| x.2) 0

def sgdRef (f : PlaneF) (g p m : Nat) (nesterov : Bool) : Update :=
  let gs := rnMul g f.gscale.toNat
  let gw := rnFma f.wd.toNat p gs.1
  let mn := rnFma f.mu.toNat m gw.1
  let d := if nesterov then rnFma f.mu.toNat mn.1 gw.1 else mn
  let u := rnMul f.nlr.toNat d.1
  ⟨u.1, mn.1, 0, stepFlags [gs, gw, mn, d, u]⟩

def adamRef (f : PlaneF) (g p m v : Nat) : Update :=
  let gs := rnMul g f.gscale.toNat
  let mg := rnMul f.c1.toNat gs.1
  let m1 := rnFma f.b1.toNat m mg.1
  let vg := rnMul f.c2.toNat gs.1
  let vgg := rnMul vg.1 gs.1
  let v1 := rnFma f.b2.toNat v vgg.1
  let mh := rnMul m1.1 f.bc1.toNat
  let vh := rnMul v1.1 f.bc2.toNat
  let sq := rnSqrt vh.1
  let den := rnAdd sq.1 f.eps.toNat
  let q := rnDiv mh.1 den.1
  let w := rnFma f.wd.toNat p q.1
  let u := rnMul f.nlr.toNat w.1
  ⟨u.1, m1.1, v1.1, stepFlags [gs, mg, m1, vg, vgg, v1, mh, vh, sq, den, q, w, u]⟩

/-- The reference order of a command's optimiser. -/
def planeRef (f : PlaneF) (g p m v : Nat) : Update :=
  match f.opt with
  | .sgd => sgdRef f g p m false
  | .nesterov => sgdRef f g p m true
  | .adam => adamRef f g p m v

/-- Whether an update is non-finite (R165). -/
def Update.bad (x : Update) : Bool := !((decodeElem 7 x.u).isFin && (decodeElem 7 x.m).isFin && (decodeElem 7 x.v).isFin)

/-! ### Issue (R154 to R158) -/

/-- The formats of R156: codes without and with the panel bit. -/
def planeFmtOk (role : Nat) (fmt : Nat) (panel : Bool) : Bool :=
  if role ≤ 1 then (if panel then fmtPanelOk fmt else decide (fmt ≤ 4) || fmt == 7)
  else if role = 2 then fmt == 5 && !panel
  else if role = 3 then (if panel then fmt == 2 || fmt == 3 else fmt == 0 || fmt == 7)
  else (if panel then fmt == 2 else fmt == 0 || fmt == 7)

/-- A state tensor that R155, R156 and R158 allow, of `n` elements; roles 0 G, 1 P, 2 OFF, 3 M, 4 V. -/
def planeTensorOk (role n : Nat) (x : Desc192) : Bool :=
  x.rank == 1 && x.stride == [1] && x.size == [n] && !x.idxEn && x.elem == 0 && !x.space
    && planeFmtOk role x.fmt x.panel && x.base % (4 * fmtWidth x.fmt) == 0

/-- Reads the descriptors of a PLANE: G, P, OFF, M, V. -/
def planeDescs (j : Job) : List (Option Stepped) → Except Stop (List (Option Desc192))
  | [] => .ok []
  | none :: hs =>
    (match planeDescs j hs with
     | .error e => .error e
     | .ok l => .ok (none :: l))
  | some h :: hs =>
    match readDesc j.d j.ctx (steppedVal j.loops h) with
    | .error e => .error e
    | .ok x =>
      match planeDescs j hs with
      | .error e => .error e
      | .ok l => .ok (some x :: l)

/-- The fields of a PLANE that its encoding bounds (R157). -/
def planeDecodeOk (f : PlaneF) : Bool :=
  decide (f.firstPanel < 2 ^ 40) && decide (f.nPanels < 2 ^ 40) && decide (f.gslotP < 65536)
    && decide (f.gslotM < 65536) && decide (f.gslotV < 65536)
    && decide (f.pres.getD 0 < 2 ^ 48) && decide (f.frz.getD 0 < 2 ^ 48)

/-- The issue checks of R158 on the tensors read. -/
def planeOperandsOk (f : PlaneF) (ds : List (Option Desc192)) : Bool :=
  match ds with
  | [some g, some p, off, some m, v] =>
    let n := g.size.headD 0
    planeTensorOk 0 n g && planeTensorOk 1 n p && planeTensorOk 3 n m
      && (match off with
          | some o => planeTensorOk 2 n o && (p.fmt == 0 || p.fmt == 1) && !p.panel
          | none => true)
      && (match v with
          | some x => f.opt == .adam && planeTensorOk 4 n x
          | none => f.opt != .adam)
      && decide (f.firstPanel + f.nPanels ≤ (n + 31) / 32)
      && decide (-32 ≤ f.lambda) && decide (f.lambda ≤ 31)
      && (f.lambda == 0 || p.fmt == 2 || p.fmt == 3 || p.fmt == 4)
  | _ => false

/-- The written tensors that a PLANE names must allow writes (R209). -/
def planeWritable (ds : List (Option Desc192)) : Bool :=
  ds.tail.all (fun x => match x with
    | some x => x.write
    | none => true)

/-- The image of a descriptor that the table holds, as the job keeps it (R208). -/
def descImage (j : Job) (h : Option Stepped) : List Byte :=
  match h with
  | some s => readMem j.d false (descEntry j.d j.ctx (steppedVal j.loops s).toNat) 192
  | none => []

/-- The gauge slots of the written tensors: P, M, V. -/
def planeGauges (f : PlaneF) (ds : List (Option Desc192)) (j : Job) : Except Stop (List (Nat × Nat × Int) × Job) :=
  let slots : List (Nat × Option Desc192) :=
    [(f.gslotP, (ds.getD 1 none)), (f.gslotM, (ds.getD 3 none)), (f.gslotV, (ds.getD 4 none))]
  slots.foldl (fun a (s : Nat × Option Desc192) =>
    match a, s.2 with
    | .error e, _ => .error e
    | .ok a, none => .ok a
    | .ok a, some x =>
      match gaugeCheck s.1 x.fmt x.panel a.2 with
      | .error e => .error e
      | .ok (g, j) => .ok (a.1 ++ [(g.slot, g.ewidth, g.ebase)], j)) (.ok ([], j))

/-- PLANE's work at issue: the checks, and the hand-over to the cluster's Planer. -/
def planeBody (f : PlaneF) (j : Job) : Except Stop Job :=
  let hs := [some f.g, some f.p, f.off, some f.mm, f.vv]
  if !planeDecodeOk f then failCls cmdDecode
  else
    match planeDescs j hs with
    | .error e => .error e
    | .ok ds =>
      let j := hs.foldl (fun j h => match h with | some h => j.tableRead (steppedVal j.loops h) | none => j) j
      if !planeOperandsOk f ds then failCls plnOperand
      else if !planeWritable ds then failCls descUse
      else
        match planeGauges f ds j with
        | .error e => .error e
        | .ok (cfgs, j) =>
          let k := j.core / 8
          let held := mapGet [] j.d.planers k
          if f.nPanels = 0 then .ok j
          else if held.any (fun p => p.core == j.core && p.ctx == j.ctx) then .error .wait
          else
            let job : PlanerJob :=
              { core := j.core, ctx := j.ctx, tag := j.cmd.tag, cmd := some f, descs := hs.map (descImage j),
                cfgs := cfgs, zstep := j.zstep, loops := j.loops }
            .ok { j with held := true, later := true, d := { j.d with planers := mapPut [] k (held ++ [job]) j.d.planers } }

/-- PLANE (R154 to R158). -/
def execPlane (q : QCmd) (f : PlaneF) (s : State) : Host.Outcome State Fault Refusal :=
  onDev (coreKnown q.core) (runCmd q [3] true false [] [] (planeBody f)) s

/-! ### One panel (R159 to R168) -/

/-- A panel of a rank-1 tensor, as a tensor of its own. -/
def panelDesc (x : Desc192) (panel n : Nat) : Desc192 :=
  let z := ((logicalStrides x).headD 0).toNat
  { x with
    base := x.base + 4 * panel * fmtWidth x.fmt
    scaleBase := x.scaleBase + panel
    size := [n]
    zorg := x.zorg + 32 * panel * z }

/-- The job of a held PLANE at work on the state. -/
def planeJob (p : PlanerJob) (d : Dev) : Job :=
  let s := queueAt d p.core 3
  let f := (s.inflight.find? (fun f => f.held && !f.glue && f.tag == p.tag)).getD {}
  { core := p.core, q := 3, ctx := p.ctx,
    cmd := ⟨p.core, .s, p.tag, none, false, none, false, none, false, 1, []⟩,
    loops := p.loops, pc := f.pc, count := s.count, zstep := p.zstep, seed := (ctxAt d p.ctx).seed, d := d }

/-- Reads bits of a mask in device-virtual memory (R112, R157): bit `i` and the `n` − 1 after it, in one
64-bit word. -/
def maskBits (va i n : Nat) (j : Job) : Except Stop (List Bool × Job) :=
  match vTake j.unit j.ctx ((va + 8 * (i / 64) : Nat) : Int) 8 j.d with
  | .error e => .error e
  | .ok (bs, d) => .ok ((List.range n).map (fun k => bitOf (ofLe bs) (i % 64 + k)), { j with d := d })

/-- The device-virtual bytes that a panel of a tensor takes: elements, and its scale byte. -/
def panelBytes (x : Desc192) (n : Nat) : List (Nat × Nat) :=
  (x.base, (n * fmtWidth x.fmt + 7) / 8) :: (if x.panel then [(x.scaleBase, 1)] else [])

/-- The HBM lines of a list of device-virtual ranges (R167, R274). -/
def glueLinesOf : List (Nat × Nat) → Job → Except Stop (List Nat × Job)
  | [], j => .ok ([], j)
  | r :: rs, j =>
    match xlate j.unit j.ctx false r.1 j.d with
    | .error e => .error e
    | .ok (host, pa, _, d) =>
      if host then failAddr glueSpace r.1
      else
        match glueLinesOf rs { j with d := d } with
        | .error e => .error e
        | .ok (ls, j) => .ok (linesOf pa r.2 ++ ls, j)

/-- One element of a panel: its state as read, whether it is frozen, and its update. -/
structure PlaneElem where
  frozen : Bool
  p : Val
  old : Val
  up : Update
  deriving DecidableEq, Repr

/-- A value widened to binary32 with the flags of a conversion (R161, R562). -/
def to32 (v : Val × Bool) : FlagRes :=
  let c := convert 7 .rne false 0 v.2 v.1
  (c.bits, c.flags)

/-- The exact sum that the parameter takes (R163). -/
def newParam (f : PlaneF) (fmt : Nat) (e : PlaneElem) : Val :=
  let u := decodeElem 7 e.up.u
  e.old.add (if fmt = 2 ∨ fmt = 3 ∨ fmt = 4 then u.times2 f.lambda else u)

/-- The conversion fields of the parameter (R151, R152, R163). -/
def paramConv (f : PlaneF) (fmt : Nat) (off : Bool) : Conv :=
  if off then ⟨.rne, true, f.stream, f.gslotP⟩
  else if fmt = 2 ∨ fmt = 3 ∨ fmt = 4 then ⟨.sr, f.satP, f.stream, f.gslotP⟩
  else ⟨f.roundP, f.satP, f.stream, f.gslotP⟩

/-- The value stored by a conversion under a random value. -/
def storedVal (t : Tens) (cv : Conv) (s r16 : Nat) (v : Val) : Val :=
  let c := convOne ⟨0, 0, 0⟩ t cv r16 s (.val v false)
  let w := decodeElem t.fmt (c.write.getD 0)
  if t.panel then scaleVal s w else w

/-- Whether an element stalls (R149): its exact value changes and what is stored does not, under any random
value. -/
def stalls (f : PlaneF) (t : Tens) (cv : Conv) (s : Nat) (off : Option (Int × Int)) (e : PlaneElem) : Bool :=
  let x := newParam f t.fmt e
  if e.frozen || !x.isFin || !e.old.isFin || x.same e.old then false
  else
    (storedVal t cv s 0 x).same e.p && (cv.round != .sr || (storedVal t cv s 65535 x).same e.p)
      && (match off with
          | some o => o.1 == o.2
          | none => true)

/-- Lanes of a moment. -/
def momentLanes (es : List PlaneElem) (get : Update → Nat) : List Lane :=
  es.map (fun e => if e.frozen then .keep else .val (decodeElem 7 (get e.up)) false)

/-- Reads a tensor of a panel as exact values with their signalling bits, consuming poison. -/
def panelVals (x : Option Desc192) (j : Job) : Except Stop (List (Val × Bool) × Job) :=
  match x with
  | none => .ok ([], j)
  | some x => takeVals (descTens x false) j

/-- Writes a moment under its gauge slot. -/
def writeMoment (f : PlaneF) (x : Desc192) (g : GaugeCfg) (gslot : Nat) (lanes : List Lane) (j : Job) :
    Except Stop Job :=
  convWrite (descTens x false) ⟨f.roundS, f.satS, f.stream, gslot⟩ g lanes j

/-- Writes the parameter, and its offcut, and counts stalls (R151, R163, R164). -/
def writeParam (f : PlaneF) (x : Desc192) (off : Option (Desc192 × List Int)) (g : GaugeCfg)
    (es : List PlaneElem) (j : Job) : Except Stop Job :=
  let t := descTens x false
  let cv := paramConv f x.fmt off.isSome
  let lanes := es.map (fun e => if e.frozen then Lane.keep else .val (newParam f x.fmt e) false)
  match convWrite t cv g lanes j with
  | .error e => .error e
  | .ok j =>
    match readTens t j with
    | .error e => .error e
    | .ok (now, j) =>
      let olds := match off with
        | some o => o.2
        | none => []
      let news := ((es.zip (now.map (elemVal t))).zip olds).map (fun (p : (PlaneElem × Val) × Int) =>
        if p.1.1.frozen then p.2 else newOffcut x.fmt (newParam f x.fmt p.1.1) p.1.2)
      let st := (List.range es.length).filter (fun i =>
        let o := if off.isSome then some (olds.getD i 0, news.getD i 0) else none
        stalls f t cv ((now.getD i ⟨0, 127, false⟩).scale) o (es.getD i ⟨true, .nan, .nan, ⟨0, 0, 0, 0⟩⟩))
      let j := { j with gauge := { slot := g.slot, stall := st.length : GaugeDelta } :: j.gauge }
      match off with
      | none => .ok j
      | some o =>
        let ot := descTens o.1 false
        putWrites false ((((es.zip news).zip ot.addrs).filter (fun p => !p.1.1.frozen)).map
          (fun (p : (PlaneElem × Int) × Int) => (⟨p.2, 8, toTwos 8 p.1.2⟩ : BitWrite))) j

/-- What a panel answers: it is committed, or passed over. -/
inductive PanelRes where
  | done (j : Job)
  | skipped (d : Dev)

/-- The presence and freeze bits of a panel: whether it is present, and which elements are frozen. -/
def panelMasks (f : PlaneF) (panel n : Nat) (j : Job) : Except Stop (Bool × List Bool × Job) :=
  match (match f.pres with
    | some a => maskBits a panel 1 j
    | none => .ok ([true], j)) with
  | .error e => .error e
  | .ok (pb, j) =>
    if pb = [false] then .ok (false, [], j)
    else
      match (match f.frz with
        | some a => maskBits a (32 * panel) n j
        | none => .ok (List.replicate n false, j)) with
      | .error e => .error e
      | .ok (fb, j) => .ok (true, fb, j)

/-- The PLN_NONFINITE event of a panel (R166). -/
def nonfiniteEvent (panel : Nat) (skipped : Bool) (j : Job) : Dev :=
  raiseRec (j.record plnNonfinite 1 panel (bit01 skipped)) j.d

/-- Clears the presence bit of a panel (R157). -/
def clearPresence (f : PlaneF) (panel : Nat) (j : Job) : Except Stop Job :=
  match f.pres, f.presClear with
  | some a, true =>
    (match vTake j.unit j.ctx ((a + panel / 8 : Nat) : Int) 1 j.d with
     | .error e => .error e
     | .ok (bs, d) =>
       match vWrite j.unit j.ctx ((a + panel / 8 : Nat) : Int) (leBytes 1 (setBits (ofLe bs) (panel % 8) (panel % 8) 0)) d with
       | .error e => .error e
       | .ok d => .ok { j with d := d })
  | _, _ => .ok j

/-- The gauge slot `i` of a job: P, M, V. -/
def planeCfg (p : PlanerJob) (i : Nat) : GaugeCfg :=
  let c := p.cfgs.getD i (0, 0, 0)
  ⟨c.1, c.2.1, c.2.2⟩

/-- The tensors of one panel of `n` elements: G, P, OFF, M, V. -/
structure PanelTens where
  n : Nat
  g : Desc192
  x : Desc192
  off : Option Desc192
  m : Desc192
  v : Option Desc192

/-- The panel that a held PLANE has reached, and its tensors. -/
def panelTens (p : PlanerJob) : Option (PlaneF × Nat × PanelTens) :=
  match p.cmd, p.descs.map parseDesc with
  | some f, [g, x, off, m, v] =>
    let panel := f.firstPanel + p.next
    let n := min 32 (g.size.headD 0 - 32 * panel)
    let sub := fun y => panelDesc y panel n
    some (f, panel, ⟨n, sub g, sub x, if f.off.isSome then some (sub off) else none, sub m,
      if f.vv.isSome then some (sub v) else none⟩)
  | _, _ => none

/-- The device-virtual ranges of a panel's glue-up (R167). -/
def panelRanges (f : PlaneF) (panel : Nat) (t : PanelTens) : List (Nat × Nat) :=
  let pres := match f.pres, f.presClear with
    | some a, true => [(a + 8 * (panel / 64), 8)]
    | _, _ => []
  panelBytes t.g t.n ++ panelBytes t.x t.n ++ (match t.off with | some o => panelBytes o t.n | none => [])
    ++ panelBytes t.m t.n ++ (match t.v with | some y => panelBytes y t.n | none => []) ++ pres

/-- One element as read and computed; the flags of its widenings and steps stand in its update. -/
def panelElem (f : PlaneF) (t : PanelTens) (frozen : Bool) (g p : Val × Bool) (off : Option Val) (m : Val × Bool)
    (v : Option (Val × Bool)) : PlaneElem :=
  let old := match off with
    | some o => offcutVal t.x.fmt p.1 (roundInt o)
    | none => p.1
  if frozen then ⟨true, p.1, old, ⟨0, 0, 0, 0⟩⟩
  else
    let g := to32 g
    let p32 := to32 (old, p.2)
    let m := to32 m
    let v := match v with
      | some v => to32 v
      | none => (0, 0)
    let up := planeRef f g.1 p32.1 m.1 v.1
    ⟨false, p.1, old, { up with fl := up.fl ||| stepFlags [g, p32, m, v] }⟩

/-- Step 3 of R159: the reads of a panel, and its elements. -/
def panelElems (f : PlaneF) (t : PanelTens) (frozen : List Bool) (j : Job) :
    Except Stop (List PlaneElem × List Val × Job) :=
  match panelVals (some t.g) j with
  | .error e => .error e
  | .ok (gs, j) =>
    match panelVals (some t.x) j with
    | .error e => .error e
    | .ok (ps, j) =>
      match panelVals t.off j with
      | .error e => .error e
      | .ok (os, j) =>
        match panelVals (some t.m) j with
        | .error e => .error e
        | .ok (ms, j) =>
          match panelVals t.v j with
          | .error e => .error e
          | .ok (vs, j) =>
            let at_ := fun (l : List (Val × Bool)) i => l.getD i (.nan, false)
            .ok ((List.range t.n).map (fun i => panelElem f t (frozen.getD i false) (at_ gs i) (at_ ps i)
              (if t.off.isSome then some (at_ os i).1 else none) (at_ ms i)
              (if t.v.isSome then some (at_ vs i) else none)), os.map (·.1), j)

/-- Steps 3 to 5 of R159 on the marked lines of a panel. -/
def panelWork (p : PlanerJob) (f : PlaneF) (panel : Nat) (t : PanelTens) (frozen : List Bool) (j : Job) :
    Except Stop PanelRes :=
  match panelElems f t frozen j with
  | .error e => .error e
  | .ok (es, os, j) =>
    let fl := es.foldl (fun a e => a ||| e.up.fl) (0 : BitVec 5)
    let j := { j with d := modCtx j.ctx (fun x => { x with ieee := x.ieee ||| fl }) j.d }
    let bad := es.any (fun e => !e.frozen && e.up.bad)
    if bad && f.skip then .ok (.skipped (nonfiniteEvent panel true j))
    else
      let j := if bad then { j with d := nonfiniteEvent panel false j } else j
      match writeParam f t.x (t.off.map (fun o => (o, os.map roundInt))) (planeCfg p 0) es j with
      | .error e => .error e
      | .ok j =>
        match writeMoment f t.m (planeCfg p 1) f.gslotM (momentLanes es (·.m)) j with
        | .error e => .error e
        | .ok j =>
          match (match t.v with
            | some y => writeMoment f y (planeCfg p 2) f.gslotV (momentLanes es (·.v)) j
            | none => .ok j) with
          | .error e => .error e
          | .ok j =>
            match clearPresence f panel j with
            | .error e => .error e
            | .ok j => .ok (.done j)

/-! ### The glue-up of a panel (R167, R275, R279, R281, R283, R286)

The marks, the apply and the release of a panel's glue-up come about inside one PLANER_PANEL. A counted abort leaves the
glue-up open, in backoff or waiting to run clamped, among the module's open glue-ups. -/

/-- The number of the glue-up that the Planer opens for the PLANE of a core. -/
def planerGlue (core : Nat) : Nat := 4 * core + 2

/-- The glue-up of a panel, or a new one. -/
def panelGlue (p : PlanerJob) (d : Dev) : Glue :=
  (glueAt d (planerGlue p.core)).getD
    { id := planerGlue p.core, core := p.core, ctx := p.ctx, commitIssued := true }

/-- A glue-up stands among the open ones as given. -/
def keepGlue (g : Glue) (d : Dev) : Dev :=
  if (glueAt d g.id).isSome then putGlue g d else { d with glues := d.glues ++ [g] }

/-- What marking a list of lines meets: the reason of an abort (R279). -/
def markClashes (g : Glue) : List Nat → Dev → Option Nat
  | [], _ => none
  | l :: ls, d =>
    match markClash d g l with
    | some r => some r
    | none =>
      let g := if g.marks.contains l then g else { g with marks := g.marks ++ [l] }
      markClashes g ls (putGlue g d)

/-- Lines in ascending order. -/
def ascending (ls : List Nat) : List Nat := (ls.foldl (fun (m : SMap Bool) l => mapPut false l true m) []).map (·.1)

/-- Whether a deck cannot apply: the controller behind a line that no deck holds is in reset (R280, R498; DESIGN CHOICE, log
entry 44). -/
def deckCannot (d : Dev) (lines : List Nat) : Bool := lines.any (hbmDown d)

/-- What an attempt to take a glue-up's lines answers: they are all taken, and the glue-up is open no more for the one step
in which it acts; or it stays open in the state given. -/
def takeLines (g : Glue) (lines : List Nat) (d : Dev) : Bool × Dev :=
  if g.phase == .waitClamp then
    let g := { g with clamped := true, attempts := 5 }
    let r := lockLines g.id (ascending lines) (keepGlue g d)
    if r.2 then (true, { r.1 with glues := r.1.glues.filter (fun o => o.id != g.id) }) else (false, r.1)
  else
    let g := { g with attempts := if g.phase == .backoff then g.attempts + 1 else g.attempts, phase := .marking }
    let d := keepGlue g d
    match markClashes g lines d with
    | some r => (false, putGlue (glueAbort d r g) d)
    | none => (true, { d with glues := d.glues.filter (fun o => o.id != g.id) })

/-- The held PLANE ends: its counts go to their slots as its command completes (R154, R164). -/
def planeEnd (p : PlanerJob) (d : Dev) : Dev :=
  let d := modQueue p.core 3 (fun s => { s with inflight := s.inflight.map (fun f =>
    if f.held && !f.glue && f.tag == p.tag then { f with held := false, imm := true, gauge := p.gauge } else f) }) d
  clampMeet p.core (drainQueue p.ctx p.core 3 d)

/-- A held PLANE after one panel: it goes to the back of its Planer's round, or ends. -/
def panelNext (k : Nat) (p : PlanerJob) (rest : List PlanerJob) (d : Dev) : Dev :=
  let p := { p with next := p.next + 1, mask := none }
  let n := match p.cmd with
    | some f => f.nPanels
    | none => 0
  let d := endGlue (planerGlue p.core) d
  if p.next < n then { d with planers := mapPut [] k (rest ++ [p]) d.planers }
  else planeEnd p { d with planers := mapPut [] k rest d.planers }

/-- The index of the panel that a held PLANE has reached. -/
def planeAt (p : PlanerJob) : Nat := (match p.cmd with | some f => f.firstPanel | none => 0) + p.next

/-- A PLANE fails (R168): the counts of its committed panels stand, and poison or a hardware error names the first
uncommitted panel. -/
def planeFail (p : PlanerJob) (e : Err) (d : Dev) : Dev :=
  failCmd (planeJob p d) { cls := e.cls, addr := if e.cls = poisonCls then planeAt p else e.addr, hi := e.hi }
    (endGlue (planerGlue p.core) d)

/-- An attempt at the panel of a held PLANE. Steps 1 and 2 of R159 come before the glue-up opens; a retry starts at
step 3. Where a deck cannot apply, the glue-up aborts with ERROR (R168, R280). -/
def panelTry (k : Nat) (p : PlanerJob) (rest : List PlanerJob) (d : Dev) : Dev :=
  match panelTens p with
  | none => panelNext k p rest d
  | some (f, panel, t) =>
    match (match p.mask with
      | some fb => Except.ok (true, fb, planeJob p d)
      | none => panelMasks f panel t.n (planeJob p d)) with
    | .error (.err e) => planeFail p e d
    | .error _ => d
    | .ok (present, frozen, j) =>
      if !present || frozen.all (fun b => b) then panelNext k p rest j.d
      else
        match glueLinesOf (panelRanges f panel t) j with
        | .error (.err e) => planeFail p e d
        | .error _ => d
        | .ok (lines, j) =>
          match takeLines (panelGlue p j.d) lines j.d with
          | (false, d) => { d with planers := mapPut [] k (rest ++ [{ p with mask := some frozen }]) d.planers }
          | (true, d') =>
            if deckCannot d' lines then planeFail p { cls := poisonCls } d'
            else
              match panelWork p f panel t frozen { j with d := d' } with
              | .error (.err e) => planeFail p e d'
              | .error _ => d
              | .ok (.skipped d) => panelNext k p rest d
              | .ok (.done j) => panelNext k { p with gauge := p.gauge ++ j.gauge } rest j.d

/-- Whether a Planer may serve a held PLANE now: its context is resident, and its panel's glue-up may start, one of at most
four (R275), or retry. -/
def panelReady (d : Dev) (k : Nat) (p : PlanerJob) : Bool :=
  (ctxAt d p.ctx).state == .resident && (match glueAt d (planerGlue p.core) with
    | none => decide ((d.glues.filter (fun g => g.id < 640 && g.id % 4 == 2 && g.core / 8 == k)).length < 4)
    | some g => if g.phase == .waitClamp then clampTurn d g else decide (g.retryAt ≤ nowNs d))

/-- PLANER_PANEL: the Planer of a cluster serves the next held PLANE that it may, for one panel. -/
def planerPanelAt (k : Nat) (d : Dev) : Dev :=
  let held := mapGet [] d.planers k
  let idle := held.takeWhile (fun p => !panelReady d k p)
  match held.drop idle.length with
  | [] => d
  | p :: tail => panelTry k p (tail ++ idle) d

/-- PLANER_PANEL (R159 to R168). -/
def execPlanerPanel (cluster : Nat) (s : State) : Host.Outcome State Fault Refusal :=
  onDev (decide (cluster < 20)) (planerPanelAt cluster) s

/-- The retry of a panel whose glue-up is open in the given phase (R281, R283). -/
def planerRetry (id : Nat) (phase : GluePhase) (d : Dev) : Dev :=
  match glueAt d id with
  | none => d
  | some g =>
    let k := g.core / 8
    let held := mapGet [] d.planers k
    match held.find? (fun p => planerGlue p.core == id && panelReady d k p) with
    | some p => if g.phase == phase then panelTry k p (held.filter (· != p)) d else d
    | none => d

/-- GLUE_TIMEOUT of a panel's glue-up: it aborts with ERROR, which ends the pass (R168, R283). -/
def planerTimeout (id : Nat) (d : Dev) : Dev :=
  match glueAt d id with
  | none => d
  | some g =>
    match (mapGet [] d.planers (g.core / 8)).find? (fun p => planerGlue p.core == id && p.ctx == g.ctx) with
    | some p =>
      if glueLate d g then planeFail p { cls := poisonCls } (glueTimeoutRec g d) else d
    | none => d

end Sys2Proof.Machine
end

