-- ==== Sys2Proof/Machine/Dovetail.lean ====
section
/-!
DEFINITION. The Dovetail engines (12 R290 to R309): DV_POST, the five kinds of descriptor, pacing, retries
and the engine's grant.
-/

namespace Sys2Proof.Machine

/-! ### Descriptors (R293, R294) -/

/-- The fields of a descriptor. -/
structure DvDesc where
  kind : Nat
  prio : Nat
  sched : Bool
  haltFault : Bool
  retry : Nat
  pace : Nat
  srcBench : Bool
  dstBench : Bool
  srcCore : Nat
  dstCore : Nat
  done : Nat
  fail : Nat
  src : Nat
  dst : Nat
  len : Nat
  deadline : Nat
  rows : Nat
  xid : Nat
  sstride : Int
  dstride : Int
  blk : Nat
  dmod : Nat
  dctx : Nat
  rop : Nat
  signal : Nat
  siggen : Nat
  reserved : Bool
  deriving DecidableEq, Repr

def parseDv (bs : List Byte) : DvDesc :=
  let a := leAt bs 0 8
  let c := leAt bs 0x18 8
  let e := leAt bs 0x20 8
  let s := leAt bs 0x28 8
  let f := leAt bs 0x30 8
  let pace := bitsOf a 13 12
  { kind := bitsOf a 3 0, prio := bitsOf a 5 4, sched := bitOf a 6, haltFault := bitOf a 7,
    retry := bitsOf a 11 8, pace := pace, srcBench := bitOf a 14, dstBench := bitOf a 15,
    srcCore := bitsOf a 23 16, dstCore := bitsOf a 31 24, done := bitsOf a 47 32, fail := bitsOf a 63 48,
    src := leAt bs 8 6, dst := leAt bs 0x10 6, len := bitsOf c 40 0, deadline := bitsOf c 63 44,
    rows := bitsOf e 23 0, xid := bitsOf e 63 32,
    sstride := if pace = 0 then ofTwos 32 (bitsOf s 31 0) else 0,
    dstride := if pace = 0 then ofTwos 32 (bitsOf s 63 32) else 0,
    blk := bitsOf s 47 0, dmod := bitsOf f 15 0, dctx := bitsOf f 27 16, rop := bitsOf f 31 28,
    signal := bitsOf f 47 32, siggen := bitsOf f 55 48,
    reserved := bitOf a 46 || bitOf a 62 || leAt bs 0x0E 2 != 0 || leAt bs 0x16 2 != 0 || bitsOf c 43 41 != 0
      || bitsOf e 31 24 != 0 || bitsOf f 63 56 != 0 || bitOf f 46 || (pace != 0 && bitsOf s 63 48 != 0)
      || bitOf (leAt bs 0x38 8) 15 }

/-- Bytes that a transfer moves. -/
def DvDesc.total (x : DvDesc) : Nat := x.len * x.rows

/-- Whether every row of a bench side lies in the bench of a core of the context (R293). -/
def dvBenchOk (d : Dev) (ctx core base : Nat) (stride : Int) (x : DvDesc) : Bool :=
  decide (core < 160) && (ctxAt d ctx).cores.getLsbD core
    && (x.total == 0 || (let last : Int := base + ((x.rows : Int) - 1) * stride
      decide (base + x.len ≤ benchSize) && decide (0 ≤ last) && decide (last + x.len ≤ benchSize)))

/-- The checks of R294. -/
def dvDescOk (d : Dev) (ctx : Nat) (x : DvDesc) : Bool :=
  let send := x.kind == 1
  decide (x.kind ≤ 4) && !x.reserved && x.pace != 3 && (decide (x.retry ≤ 7) || x.retry == 0xF)
    && decide (x.total < 2 ^ 48)
    && (!x.srcBench || x.pace == 2 || dvBenchOk d ctx x.srcCore x.src x.sstride (if x.kind = 2 then { x with len := 192, rows := 1 } else x))
    && (!x.dstBench || x.pace == 1 || send || dvBenchOk d ctx x.dstCore x.dst x.dstride x)
    && (send || (!x.sched && x.deadline == 0 && x.xid == 0 && x.dmod == 0 && x.dctx == 0 && x.rop == 0
        && x.signal == 0 && x.siggen == 0))
    && (x.pace == 0 || decide (x.rows ≤ 1))
    && (!send || (decide ((x.total + 511) / 512 ≤ 2 ^ 32) && (decide (x.rop ≤ 5) || x.rop == 10)
        && ((x.rop != 1 && x.rop != 10) || x.len % 32 == 0) && ((x.rop != 4 && x.rop != 5) || x.len % 8 == 0)))

/-! ### Halts and records (R304, R309) -/

/-- DV.ERR codes: the member number of the class (R481). -/
def dvErrDesc : Nat := 2
def dvErrPace : Nat := 3
def dvErrBus : Nat := 4
def dvErrXlate : Nat := 6
def dvErrFlag : Nat := 7

/-- A record of the running descriptor. -/
def dvRunRecord (m ctx : Nat) (r : DvRun) (cls addr : Nat) (more : List (Nat × Nat)) : ErrRec :=
  dvRecord m ctx r.addr r.tag cls addr more

/-- Halts the running descriptor: DV.STATUS, and DV.FAIL if valid (R304). -/
def dvHalt (m ctx code : Nat) (d : Dev) : Dev :=
  let ch := chanAt d m
  match ch.run with
  | none => d
  | some r =>
    let d := dvMark m ctx r.addr 3 code r.tries ch.doneBytes d
    let d := modChan m (fun ch => { ch with run := some { r with halted := true, err := code, retryAt := none } }) d
    dvFailSet m ctx r.addr r.tag (parseDv r.desc).fail d

/-- A halt that also faults the context. -/
def dvHaltFault (m ctx code cls addr : Nat) (more : List (Nat × Nat)) (d : Dev) : Dev :=
  match (chanAt d m).run with
  | none => d
  | some r => faultCtx ctx (dvRunRecord m ctx r cls addr more) (dvHalt m ctx code d)

/-- A bus error on one access: a retry, or the halt when the last retry has failed (R303, R304). A descriptor that has not
been read yet takes the channel's limit. -/
def dvBusError (m ctx : Nat) (d : Dev) : Dev :=
  let ch := chanAt d m
  match ch.run with
  | none => d
  | some r =>
    let x := parseDv r.desc
    let limit := if x.retry = 0xF ∨ r.desc = [] then ch.retryLimit else x.retry
    if r.tries < limit then
      let t := nowNs d + cyclesNs d (m / 32) (256 * (r.tries + 1))
      modChan m (fun ch => { ch with run := some { r with tries := r.tries + 1, retryAt := some t } }) d
    else
      let d := dvHalt m ctx dvErrBus d
      let rec_ := dvRunRecord m ctx r dvBuserr r.addr [(r.tries, 3)]
      if x.haltFault then faultCtx ctx rec_ d else raiseRec { rec_ with kind := 1 } d

/-- The containment of a span word that may not leave a bench (R66, R488): the core leaves service, and the context resident
on it faults. -/
def dvSuspect (ctx core : Nat) (r : ErrRec) (d : Dev) : Dev :=
  let d := match (coreAt d core).resident with
    | some c => if c = ctx then d else faultCtx c r d
    | none => d
  suspectCore core d

/-- What a failed access of a channel does: a translation failure halts it with DV_XLATE (R295), a bus error is retried
(R303), consumed poison and a span check fault the context (R292, R63, R66); a held line makes it wait. -/
def dvFailed (m ctx : Nat) (s : Stop) (d : Dev) : Dev :=
  match s with
  | .err e =>
    let d := e.dev.getD d
    if e.cls = dvBuserr then dvBusError m ctx d
    else if e.cls = xlateFault ∨ e.cls = xlatePerm then dvHaltFault m ctx dvErrXlate e.cls e.addr [(e.hi, 2)] d
    else
      let r := (chanAt d m).run.getD {}
      let d := match e.red with
        | some slot => setRedError (m / 32) ctx slot d
        | none => d
      let rec_ := dvRunRecord m ctx r e.cls e.addr []
      let d := faultCtx ctx rec_ d
      let x := parseDv r.desc
      if e.cls = spanWidth ∧ x.srcBench then dvSuspect ctx x.srcCore rec_ d else d
  | _ => d

/-! ### Pacing (R299, R300) -/

/-- The fields of a pacing block. -/
def pbBase (pb : List Byte) : Nat := leAt pb 0 6
def pbSize (pb : List Byte) : Nat := 2 ^ bitsOf (leAt pb 0 8) 52 48
def pbHigh (pb : List Byte) : Nat := leAt pb 8 4
def pbLow (pb : List Byte) : Nat := leAt pb 0xC 4
def pbPeer (pb : List Byte) : Nat := leAt pb 0x10 6
def pbOwn (pb : List Byte) : Nat := leAt pb 0x18 6

/-- Whether a pacing block is good. -/
def pbOk (pb : List Byte) : Bool :=
  let k := bitsOf (leAt pb 0 8) 52 48
  decide (12 ≤ k) && decide (k ≤ 30) && pbBase pb % pbSize pb == 0 && decide (pbLow pb < pbHigh pb)
    && decide (pbHigh pb ≤ pbSize pb)

/-- The room of a paced channel: bytes it may move. -/
def paceRoom (x : DvDesc) (r : DvRun) (peer : Nat) : Int :=
  let own : Int := r.own0 + r.moved
  if x.pace = 1 then (pbSize r.pb : Int) - (own - peer) else (peer : Int) - own

/-- A channel may act: its context runs, no stop holds it, and its engine is not in reset (R498). -/
def chanOwner (d : Dev) (m : Nat) : Option Nat :=
  let ch := chanAt d m
  let down := d.resets.any (fun j => (j.domain == 1 && j.unit.toNat == unitDovetail (m / 16))
    || (j.domain == 3 && j.unit.toNat == unitCluster (m / 32)))
  match ch.owner with
  | none => none
  | some c =>
    let st := (ctxAt d c).state
    if ch.stopped || down || st == .free || st == .faulted then none else some c

/-! ### Accesses beside the lines (R292, R293, R299, R300) -/

/-- The run of a channel with `f` applied. -/
def modRun (m : Nat) (f : DvRun → DvRun) (d : Dev) : Dev := modChan m (fun ch => { ch with run := ch.run.map f }) d

/-- A due access has succeeded: its successors are due, and the retry count is fresh (R304). -/
def dvPassed (m : Nat) (more : List DvDue) (d : Dev) : Dev :=
  modRun m (fun r => { r with due := more ++ r.due.drop 1, tries := 0 }) d

/-- The descriptor as read, its own copy from here on (R292). -/
def dueDesc (m ctx : Nat) (r : DvRun) (d : Dev) : Except Stop Dev :=
  match dvTake (m / 32) ctx r.addr 64 d with
  | .error e => .error e
  | .ok (bs, d) =>
    .ok (dvPassed m [.running] (modRun m (fun r => { r with desc := bs, paused := (parseDv bs).pace != 0 }) d))

/-- DV.STATE 1, and the checks of R294. -/
def dueRunning (m ctx : Nat) (r : DvRun) (d : Dev) : Except Stop Dev :=
  match dvStatusPut m ctx r.addr (dvStatus 1 0 0 0) d with
  | .error e => .error e
  | .ok d =>
    let x := parseDv r.desc
    let d := dvPassed m (if x.pace = 0 then [] else [.block]) d
    .ok (if dvDescOk d ctx x then d else dvHaltFault m ctx dvErrDesc dvDesc r.addr [] d)

/-- The pacing block. -/
def dueBlock (m ctx : Nat) (r : DvRun) (d : Dev) : Except Stop Dev :=
  let x := parseDv r.desc
  match dvTake (m / 32) ctx x.blk 32 d with
  | .error e => .error e
  | .ok (pb, d) =>
    let d := dvPassed m [.own] (modRun m (fun r => { r with pb := pb }) d)
    let side := if x.pace = 1 then (x.dstBench, x.dstCore) else (x.srcBench, x.srcCore)
    if !pbOk pb then .ok (dvHaltFault m ctx dvErrPace dvPace r.addr [] d)
    else if side.1 && (!(ctxAt d ctx).cores.getLsbD side.2 || decide (benchSize < pbBase pb + pbSize pb)) then
      .ok (dvHaltFault m ctx dvErrDesc dvDesc r.addr [] d)
    else .ok d

/-- The own index as a paced descriptor starts. -/
def dueOwn (m ctx : Nat) (r : DvRun) (d : Dev) : Except Stop Dev :=
  match dvTake (m / 32) ctx (pbOwn r.pb) 8 d with
  | .error e => .error e
  | .ok (bs, d) => .ok (dvPassed m [.peer] (modRun m (fun r => { r with own0 := ofLe bs }) d))

/-- Reads the peer index and applies the start rule; room out of range halts with DV_PACE (R300). -/
def pacePeer (m ctx : Nat) (r : DvRun) (d : Dev) : Except Stop Dev :=
  match dvTake (m / 32) ctx (pbPeer r.pb) 8 d with
  | .error e => .error e
  | .ok (bs, d) =>
    let x := parseDv r.desc
    let peer := ofLe bs
    let room := paceRoom x r peer
    let d := dvPassed m [] d
    if room < 0 ∨ (pbSize r.pb : Int) < room then .ok (dvHaltFault m ctx dvErrPace dvPace r.addr [] d)
    else
      let start := decide ((min (pbHigh r.pb) (x.total - r.moved) : Nat) ≤ room)
      .ok (modRun m (fun r => { r with peer := peer, paused := r.paused && !start }) d)

/-- The own index of a paced channel: the bytes that it has moved are visible before it (R300). -/
def dueIndex (m ctx : Nat) (r : DvRun) (d : Dev) : Except Stop Dev :=
  match dvStore (m / 32) ctx (pbOwn r.pb) (leBytes 8 (r.own0 + r.moved)) false d with
  | .error e => .error e
  | .ok d => .ok (dvPassed m [] d)

/-- DV.DONE_BYTES without DV.STATE (R293). -/
def dueBytes (m ctx : Nat) (r : DvRun) (d : Dev) : Except Stop Dev :=
  match dvStore (m / 32) ctx ((r.addr : Int) + 0x3A) (leBytes 6 (chanAt d m).doneBytes) false d with
  | .error e => .error e
  | .ok d => .ok (dvPassed m [] d)

/-- The pause rule of R300. -/
def duePause (m : Nat) (r : DvRun) (d : Dev) : Dev :=
  let x := parseDv r.desc
  let room := paceRoom x r r.peer
  let rem : Int := (x.total : Int) - r.moved
  let d := dvPassed m [] d
  if room ≤ pbLow r.pb ∧ room < rem then modRun m (fun r => { r with paused := true }) d else d

/-- One due access. -/
def dvDueStep (m ctx : Nat) (r : DvRun) (d : Dev) : DvDue → Except Stop Dev
  | .desc => dueDesc m ctx r d
  | .running => dueRunning m ctx r d
  | .block => dueBlock m ctx r d
  | .own => dueOwn m ctx r d
  | .peer => pacePeer m ctx r d
  | .bytes => dueBytes m ctx r d
  | .index => dueIndex m ctx r d
  | .pause => .ok (duePause m r d)

/-- The access that a channel must make before its next line, with its context and run. -/
def dvDueNow (d : Dev) (m : Nat) : Option (Nat × DvRun × DvDue) :=
  match chanOwner d m, (chanAt d m).run with
  | some ctx, some r => if r.halted || r.retryAt.isSome then none else r.due.head?.map (fun a => (ctx, r, a))
  | _, _ => none

/-- The due accesses of a channel in order, until one waits, fails or none is left; `fuel` bounds them. -/
def dvSettle (m : Nat) : Nat → Dev → Dev
  | 0, d => d
  | fuel + 1, d =>
    match dvDueNow d m with
    | none => d
    | some (ctx, r, a) =>
      match dvDueStep m ctx r d a with
      | .error .wait => d
      | .error s => dvFailed m ctx s d
      | .ok d => dvSettle m fuel d

/-- The due accesses of a channel, the first met by the bus error of a step (R303); what is left of the error. -/
def dvServe (m : Nat) (err : Option BusErr) (d : Dev) : Option BusErr × Dev :=
  match err, dvDueNow d m with
  | some _, some (ctx, _, _) => (none, dvBusError m ctx d)
  | e, _ => (e, dvSettle m 12 d)

/-! ### Starting (R292) -/

/-- The kind byte of a posted descriptor; 15 where it cannot be read now. -/
def postedKind (d : Dev) (m ctx addr : Nat) : Nat :=
  match dvLoad (m / 32) ctx 1 addr 1 d with
  | .ok ([(b, false)], _) => bitsOf b.toNat 3 0
  | _ => 15

/-- An idle channel starts its next posted descriptor, if its kind is one of those wanted (a reserved kind, or one that
cannot be read now, starts whatever is wanted). The accesses that the start takes are due. -/
def dvStart (m : Nat) (kinds : List Nat) (d : Dev) : Dev :=
  match chanOwner d m, (chanAt d m).run, (chanAt d m).posted with
  | some ctx, none, (addr, tag) :: rest =>
    let k := postedKind d m ctx addr
    if !kinds.contains k && decide (k ≤ 4) then d
    else
      modChan m (fun ch => { ch with
        run := some { addr := addr, tag := tag, paused := false, due := [.desc] }, posted := rest, doneBytes := 0 }) d
  | _, _, _ => d

/-! ### Moving bytes (R293, R295, R301) -/

/-- Address of byte `n` of a side, and how many bytes follow it without a break. -/
def dvSpot (x : DvDesc) (r : DvRun) (isSrc : Bool) (n : Nat) : Int × Nat :=
  let ring := x.pace == (if isSrc then 2 else 1)
  if ring then
    let o := (r.own0 + n) % pbSize r.pb
    (((pbBase r.pb + o : Nat) : Int), min (pbSize r.pb - o) (x.total - n))
  else
    let base : Int := if isSrc then x.src else x.dst
    let stride := if isSrc then x.sstride else x.dstride
    (base + (n / x.len : Nat) * stride + (n % x.len : Nat), x.len - n % x.len)

/-- Bytes of the source within one line, each with its poison. -/
def dvRead (m ctx : Nat) (x : DvDesc) (a : Int) (n : Nat) (d : Dev) : Except Stop (List (Byte × Bool) × Dev) :=
  if x.srcBench then
    if benchDown d x.srcCore then busError
    else .ok ((List.range n).map (fun i =>
      (memByte d.bench (benchKey x.srcCore (a.toNat + i)), benchPoisoned d x.srcCore (a.toNat + i) 1)), d)
  else dvLoadLine (m / 32) ctx a n d

/-- Writes bytes at the destination within one line, poison with them. -/
def dvWrite (m ctx : Nat) (x : DvDesc) (a : Int) (bs : List (Byte × Bool)) (d : Dev) : Except Stop Dev :=
  if x.dstBench then
    if benchDown d x.dstCore then busError
    else
      let d := benchWrite x.dstCore a.toNat (bs.map (·.1)) d
      .ok ((List.range bs.length).foldl (fun d i =>
        if (bs.getD i (0, false)).2 then benchPoison x.dstCore (a.toNat + i) 1 d else d) d)
  else dvStore (m / 32) ctx a (bs.map (·.1)) (bs.any (·.2)) d

/-- Whether one of `rows` rows of `len` bytes from `src` on, `stride` apart, meets the `n` bytes from `a`. -/
def rowsMeet (src stride : Int) (len rows : Nat) (a : Int) (n : Nat) : Bool :=
  let lo : Int := a - len - src
  let hi : Int := a + n - src
  let s : Int := if stride < 0 then -stride else stride
  let lo' : Int := if stride < 0 then -hi else lo
  let hi' : Int := if stride < 0 then -lo else hi
  if len = 0 ∨ n = 0 ∨ rows = 0 then false
  else if s = 0 then decide (lo' < 0 ∧ 0 < hi')
  else
    let i := max 0 (lo' / s + 1)
    decide (i * s < hi' ∧ i < rows)

/-- Whether a piece of a COPY's destination lies in its source range too (R295). -/
def copyOverlaps (x : DvDesc) (r : DvRun) (a : Int) (n : Nat) : Bool :=
  x.srcBench == x.dstBench && (!x.srcBench || x.srcCore == x.dstCore)
    && (if x.pace = 2 then rowsMeet (pbBase r.pb) 0 (pbSize r.pb) 1 a n else rowsMeet x.src x.sstride x.len x.rows a n)

/-- Progress of `n` bytes: DV.DONE_BYTES and the own index are due at each 1 KiB and the own index after the last byte, the
peer index at each 1 KiB, then the pause rule (R293, R300). -/
def dvProgress (m n : Nat) (x : DvDesc) (r : DvRun) (d : Dev) : Dev :=
  let moved := r.moved + n
  let kib := moved / 1024 != r.moved / 1024
  let paced := x.pace != 0
  let due := (if kib then [DvDue.bytes] else []) ++ (if paced && (kib || decide (x.total ≤ moved)) then [.index] else [])
    ++ (if paced && kib && decide (moved < x.total) then [.peer] else []) ++ (if paced then [.pause] else [])
  dvSettle m 8 (modChan m (fun ch => { ch with
    run := some { r with moved := moved, tries := 0, due := due }, doneBytes := ch.doneBytes + n }) d)

/-- Bytes that the next read beat brings into the staging buffer; 0 where it is full, the source is at its end, or the ring
holds no more. -/
def dvFetch (x : DvDesc) (r : DvRun) : Nat :=
  let got := r.moved + r.stage.length
  if x.total ≤ got then 0
  else
    let s := dvSpot x r true got
    let k := min s.2 (64 - (s.1 % 64).toNat)
    let k := if x.pace = 2 then min k (paceRoom x { r with moved := got } r.peer).toNat else k
    if 1024 < r.stage.length + k then 0 else k

/-- A read beat: a line of the source enters the staging buffer (R301). -/
def fetchLine (m ctx : Nat) (x : DvDesc) (r : DvRun) (d : Dev) : Except Stop Dev :=
  match dvRead m ctx x (dvSpot x r true (r.moved + r.stage.length)).1 (dvFetch x r) d with
  | .error e => .error e
  | .ok (bs, d) => .ok (modRun m (fun r => { r with stage := r.stage ++ bs, tries := 0 }) d)

/-- A write beat of a COPY: a line of the destination leaves the staging buffer. Where it lies in the source range too its
bytes are undefined (R295). -/
def copyLine (m ctx : Nat) (x : DvDesc) (r : DvRun) (d : Dev) : Except Stop Dev :=
  let t := dvSpot x r false r.moved
  let n := min (min t.2 (64 - (t.1 % 64).toNat)) r.stage.length
  let n := if x.pace = 1 then min n (paceRoom x r r.peer).toNat else n
  let bs := r.stage.take n
  let f := drawBytes bs.length d
  let w := if copyOverlaps x r t.1 n then ((f.1.zip bs).map (fun p => (p.1, p.2.2)), f.2) else (bs, d)
  match dvWrite m ctx x t.1 w.1 w.2 with
  | .error e => .error e
  | .ok d => .ok (dvProgress m n x { r with stage := r.stage.drop n } d)

/-! ### SEND (R306) -/

/-- Poison map of payload bytes, one bit a flit. -/
def flitPoisons (bs : List (Byte × Bool)) : Nat :=
  bitMap ((List.range ((bs.length + 63) / 64)).filter (fun f => ((bs.drop (64 * f)).take 64).any (·.2)))

/-- The packet that carries the bytes `bs` of a SEND from byte `n` on. Its destination address is that of its first byte
(R293, R299); a META packet names slots. -/
def sendPacketOf (ctx : Nat) (x : DvDesc) (r : DvRun) (n : Nat) (bs : List (Byte × Bool)) (d : Dev) : DataPkt :=
  let i := n / 512
  let k := if x.total = 0 then 1 else (x.total + 511) / 512
  let last := i + 1 == k
  { vc := if x.sched then 4 else 0
    kind := if x.sched then 2 else 0
    epoch := d.tab.epoch
    last := last
    ack := bitOf x.fail 15
    dmod := x.dmod
    smod := d.tab.modid
    poison := flitPoisons bs
    dctx := x.dctx
    sctx := ctx
    rop := x.rop
    xid := BitVec.ofNat 32 x.xid
    pidx := i
    pcount := if last then k % 2 ^ 32 else 0
    dva := (if x.rop = 10 then x.dst + 16 * i else if x.total = 0 then x.dst else (dvSpot x r false n).1.toNat) % 2 ^ 48
    len := bs.length
    deadline := nowNs d + min x.deadline 100000
    signal := if bitOf x.signal 15 then x.signal % 2 ^ 16 else 0
    siggen := x.siggen
    stag := r.tag
    payload := payloadFlits (bs.map (·.1)) }

/-- Whether every address that a packet forms lies in the destination's device-virtual space (R330). -/
def sendInSpace (x : DvDesc) (r : DvRun) (n len : Nat) : Bool :=
  x.rop == 10 || len == 0 || (let a := (dvSpot x r false n).1
    decide (0 ≤ a) && decide (a + len ≤ (2 : Int) ^ 48))

/-- The checks of span records before a SEND moves them (R63, R66): each in order, at its own reduction. A poisoned record
leaves as poison, unchecked. -/
def spansLeave (u ctx : Nat) : List (List (Byte × Bool)) → Dev → Except Stop Dev
  | [], d => .ok d
  | c :: cs, d =>
    if c.length < 32 || c.any (·.2) then spansLeave u ctx cs d
    else
      let x := parseSpan (c.map (·.1))
      match redLoad u ctx x.rslot d with
      | .error e => .error e
      | .ok (r, d) =>
        match leaveCheck x.rslot r (x, false) d with
        | .error e => .error e
        | .ok _ => spansLeave u ctx cs d

/-- A sender tombstone that holds a SEND back (R306, R321). -/
def sendHeld (ctx : Nat) (x : DvDesc) (d : Dev) : Bool :=
  d.fab.tombs.any (fun t => t.ctx == ctx && t.xid == BitVec.ofNat 32 x.xid && decide (nowNs d < t.until_))
    || decide (4096 ≤ d.fab.tombs.length)

/-- The timetable entry of the present bay at the port that a scheduled send leaves by; none where it leaves by no port. -/
def sendBay (d : Dev) (x : DvDesc) : Option Nat :=
  if d.tab.modidValid && x.dmod == d.tab.modid then none
  else (route d none d.tab.epoch 4 false x.dmod).map (fun o => bayEntry d o.1)

/-- Whether a bay is reserved to a send, and runs (R308, R353). -/
def bayIs (d : Dev) (ctx : Nat) (x : DvDesc) (e : Nat) : Bool :=
  bitsOf e 63 62 == 1 && baysRun d && bitsOf e 59 48 == ctx && bitsOf e 47 32 == d.tab.modid
    && bitsOf e 31 0 == x.xid

/-- Whether a scheduled send's bay is open at the port that its packets leave by. -/
def schedOpen (d : Dev) (ctx : Nat) (x : DvDesc) : Bool :=
  x.kind == 1 && x.sched && (match sendBay d x with
    | some e => bayIs d ctx x e
    | none => false)

/-- Whether a scheduled send waits for a bay (R308, R353, R359). -/
def schedWaits (d : Dev) (ctx : Nat) (x : DvDesc) : Bool :=
  x.sched && (sendBay d x).isSome && !schedOpen d ctx x

/-- A whole packet leaves: the span checks, then its egress, which may refuse it (R303). -/
def sendPacket (m ctx : Nat) (x : DvDesc) (r : DvRun) (n : Nat) (bs : List (Byte × Bool)) (d : Dev) : Except Stop Dev :=
  if !sendInSpace x r n bs.length then failXlate xlateFault (dvSpot x r false n).1 0
  else
    match (if x.rop = 1 then spansLeave (m / 32) ctx (chunksOf 16 32 bs) d else .ok d) with
    | .error e => .error e
    | .ok d =>
      let p := sendPacketOf ctx x r n bs d
      let k : Pkt := { bytes := packData p, vc := p.vc, chan := some m, sched := x.sched }
      match inject k x.dmod none d with
      | none => busError
      | some d =>
        let t : SendTomb := { ctx := ctx, xid := BitVec.ofNat 32 x.xid, until_ := nowNs d + 100000 }
        .ok (if p.last then { d with fab := { d.fab with tombs := d.fab.tombs ++ [t] } } else d)

/-- Bytes of the packet that a SEND fills now. -/
def pktLen (x : DvDesc) (r : DvRun) : Nat := min 512 (x.total - (r.moved - r.pkt.length))

/-- A write beat of a SEND: a flit leaves the staging buffer for the packet, which leaves when it is whole. -/
def sendLine (m ctx : Nat) (x : DvDesc) (r : DvRun) (d : Dev) : Except Stop Dev :=
  let n := min (min (64 - r.pkt.length % 64) (pktLen x r - r.pkt.length)) r.stage.length
  let pkt := r.pkt ++ r.stage.take n
  let r' := { r with stage := r.stage.drop n, pkt := pkt }
  if x.total = 0 then
    match sendPacket m ctx x r 0 [] d with
    | .error e => .error e
    | .ok d => .ok (modRun m (fun r => { r with moved := 1, tries := 0 }) d)
  else if pkt.length < pktLen x r then .ok (dvProgress m n x r' d)
  else
    match sendPacket m ctx x r (r.moved - r.pkt.length) pkt d with
    | .error e => .error e
    | .ok d => .ok (dvProgress m n x { r' with pkt := [] } d)

/-! ### Beats (R301) -/

/-- Whether the running descriptor has done all its work. -/
def dvWorkDone (x : DvDesc) (r : DvRun) : Bool :=
  r.due == [] && (if x.kind = 0 then decide (x.total ≤ r.moved)
    else if x.kind = 1 then decide (max 1 x.total ≤ r.moved)
    else decide (1 ≤ r.moved))

/-- Whether a SEND's next beat is held back: by a tombstone of its identifier or a full table of them (R321), or, where the
beat would make a packet whole, by the timetable (R308). -/
def sendWaits (d : Dev) (ctx : Nat) (x : DvDesc) (r : DvRun) : Bool :=
  x.kind == 1 && (sendHeld ctx x d
    || (dvFetch x r == 0 && decide (pktLen x r ≤ r.pkt.length + min (64 - r.pkt.length % 64) r.stage.length)
        && schedWaits d ctx x))

/-- A channel that may take a beat: its context, descriptor and run. -/
def dvReady (d : Dev) (m : Nat) : Option (Nat × DvDesc × DvRun) :=
  match chanOwner d m, (chanAt d m).run with
  | some ctx, some r =>
    let x := parseDv r.desc
    if r.halted || r.due != [] || (x.pace != 0 && r.paused) || r.retryAt.isSome || dvWorkDone x r
        || !(x.kind == 0 || x.kind == 1) || sendWaits d ctx x r
    then none else some (ctx, x, r)
  | _, _ => none

/-- The access of a beat: a read while the staging buffer has room for it, else a write. -/
def dvLine (m ctx : Nat) (x : DvDesc) (r : DvRun) (d : Dev) : Except Stop Dev :=
  if dvFetch x r ≠ 0 then fetchLine m ctx x r d
  else if x.kind = 0 then copyLine m ctx x r d
  else sendLine m ctx x r d

/-- One beat of a ready channel; a bus error meets it where `err` says so. -/
def dvBeat (m : Nat) (err : Option BusErr) (d : Dev) : Dev :=
  match dvReady d m with
  | none => d
  | some (ctx, x, r) =>
    if err.isSome then dvBusError m ctx d
    else
      match dvLine m ctx x r d with
      | .error s => dvFailed m ctx s d
      | .ok d => d

/-- Up to `n` beats of a channel, the bus error on the first. -/
def dvBeats (m : Nat) : Nat → Option BusErr → Dev → Dev
  | 0, _, d => d
  | n + 1, err, d => dvBeats m n none (dvBeat m err d)

/-- The running descriptor's kind, once it has been read. -/
def runKind (d : Dev) (m : Nat) : Option Nat :=
  match (chanAt d m).run with
  | some r => if r.desc = [] then none else some (parseDv r.desc).kind
  | none => none

/-- COPY and SEND: the channel starts its next descriptor if it is of the kind, and moves on. -/
def dvWork (m kind beats : Nat) (err : Option BusErr) (d : Dev) : Dev :=
  let y := dvServe m err (dvStart m [kind] d)
  if runKind y.2 m = some kind then dvBeats m beats y.1 y.2 else y.2

/-- Channels of the module. -/
def chanKnown (m : Nat) : Bool := decide (m < 640)

/-- COPY (R295, R297, R298). -/
def execCopy (chan beats : Nat) (err : Option BusErr) (s : State) : Host.Outcome State Fault Refusal :=
  onDev (chanKnown chan) (dvWork chan 0 beats err) s

/-- SEND (R297, R298, R306 to R308). -/
def execSend (chan packets : Nat) (err : Option BusErr) (s : State) : Host.Outcome State Fault Refusal :=
  onDev (chanKnown chan) (dvWork chan 1 packets err) s

/-! ### MINT, RESUME and FLUSH (R296, R305) -/

/-- A failed mint's record (R207): the handle and the code are reported, nothing faults. -/
def mintRecord (m ctx : Nat) (r : DvRun) (code handle : Nat) (d : Dev) : Dev :=
  raiseRec (dvRunRecord m ctx r code handle []) d

/-- The image of a MINT: 192 bytes line by line, from a bench or from device memory. -/
def mintSource (m ctx : Nat) (x : DvDesc) : Nat → Nat → Dev → Except Stop (List (Byte × Bool) × Dev)
  | 0, _, d => .ok ([], d)
  | fuel + 1, n, d =>
    if 192 ≤ n then .ok ([], d)
    else
      let a : Int := ((x.src + n : Nat) : Int)
      let k := min (192 - n) (64 - (x.src + n) % 64)
      match dvRead m ctx x a k d with
      | .error e => .error e
      | .ok (bs, d) =>
        match mintSource m ctx x fuel (n + k) d with
        | .error e => .error e
        | .ok (cs, d) => .ok (bs ++ cs, d)

/-- MINT's work: the image is read, which consumes poison, and the entry written or the code kept for DV.ERR (R207). -/
def mintWork (m ctx : Nat) (x : DvDesc) (r : DvRun) (d : Dev) : Except Stop Dev :=
  match mintSource m ctx x 5 0 d with
  | .error e => .error e
  | .ok (bs, d) =>
    if bs.any (·.2) then .error (.err { cls := poisonCls, addr := x.src, dev := some d })
    else
      let h := x.dst % 65536
      match mintAt ctx h (bs.map (·.1)) d with
      | .error e => .error e
      | .ok y =>
        let d := if y.1 = 0 then y.2 else mintRecord m ctx r y.1 h y.2
        .ok (modRun m (fun r => { r with moved := 1, code := y.1, tries := 0 }) d)

/-- MINT: an idle channel starts it, and it acts once. -/
def dvMint (m : Nat) (d : Dev) : Dev :=
  let d := (dvServe m none (dvStart m [2] d)).2
  match chanOwner d m, (chanAt d m).run with
  | some ctx, some r =>
    let x := parseDv r.desc
    if x.kind ≠ 2 ∨ r.halted ∨ r.retryAt.isSome ∨ r.due ≠ [] ∨ r.moved ≠ 0 then d
    else
      match mintWork m ctx x r d with
      | .error s => dvFailed m ctx s d
      | .ok d => d
  | _, _ => d

def execMint (chan : Nat) (s : State) : Host.Outcome State Fault Refusal :=
  onDev (chanKnown chan) (dvMint chan) s

/-- The member number of a class in the 8 bits of DV.ERR (R293, R481). -/
def dvErrOf (code : Nat) : Nat := code % 256

/-- A descriptor ends: DV.STATE 2, DV.DONE_BYTES and a failed mint's code, then DV.DONE (R297, R207). -/
def dvEnd (m ctx : Nat) (r : DvRun) (done : Nat) (d : Dev) : Except Stop Dev :=
  match dvStatusPut m ctx r.addr (dvStatus 2 (dvErrOf r.code) 0 done) d with
  | .error e => .error e
  | .ok d => dvFlagSet m ctx (parseDv r.desc).done d

/-- What a descriptor that cannot end does: DV.DONE that fails to translate halts the channel with DV_FLAG, sets DV.FAIL
and faults the context (R304, R309); a status write that fails is a failed access. -/
def dvEndFailed (m ctx : Nat) (s : Stop) (d : Dev) : Dev :=
  match s with
  | .err e =>
    if e.cls = flagXlate then dvHaltFault m ctx dvErrFlag flagXlate e.addr [] d else dvFailed m ctx s d
  | _ => d

/-- The place in the queue, the address, tag and kind of the RESUME or FLUSH that a channel acts on next: the first posted
one of a halted channel, or the head of an idle one. -/
def nextControl (d : Dev) (m ctx : Nat) : Option (Nat × Nat × BitVec 32 × Nat) :=
  let ch := chanAt d m
  let at_ := fun (i : Nat) => match ch.posted[i]? with
    | some p =>
      let k := postedKind d m ctx p.1
      if k == 3 || k == 4 then some (i, p.1, p.2, k) else none
    | none => none
  match ch.run with
  | some r => if r.halted then (List.range ch.posted.length).findSome? at_ else none
  | none => at_ 0

/-- What RESUME (kind 3) or FLUSH (kind 4) does to a halted descriptor. -/
def controlAct (m ctx kind : Nat) (d : Dev) : Except Stop Dev :=
  match (chanAt d m).run with
  | none => .ok d
  | some r =>
    let done := (chanAt d m).doneBytes
    if kind = 3 then
      match dvStatusPut m ctx r.addr (dvStatus 1 0 0 done) d with
      | .error e => .error e
      | .ok d => .ok (modRun m (fun r => { r with halted := false, err := 0, tries := 0, retryAt := none }) d)
    else
      match dvStatusPut m ctx r.addr (dvStatus 4 r.err r.tries done) d with
      | .error e => .error e
      | .ok d => .ok (modChan m (fun ch => { ch with run := none }) d)

/-- A RESUME or FLUSH as read acts and completes itself. -/
def controlWork (m ctx kind : Nat) (r : DvRun) (d : Dev) : Except Stop Dev :=
  match controlAct m ctx kind d with
  | .error e => .error e
  | .ok d => dvEnd m ctx r 0 d

/-- A RESUME or FLUSH that fails becomes the descriptor on which the channel halts (R294, R304). -/
def controlHalts (m : Nat) (r : DvRun) (d : Dev) : Dev :=
  modChan m (fun ch => { ch with run := some r, doneBytes := 0 }) d

/-- RESUME or FLUSH: acts on a halted channel, is empty on another, and completes itself; one post is used up. -/
def dvControl (m kind : Nat) (d : Dev) : Dev :=
  match chanOwner d m with
  | none => d
  | some ctx =>
    match nextControl d m ctx with
    | none => d
    | some (i, addr, tag, k) =>
      if k ≠ kind then d
      else
        match dvTake (m / 32) ctx addr 64 d with
        | .error (.err e) =>
          if e.cls = dvBuserr then d
          else dvFailed m ctx (.err e) (controlHalts m { addr := addr, tag := tag } d)
        | .error _ => d
        | .ok (bs, d) =>
          let r : DvRun := { desc := bs, addr := addr, tag := tag }
          let used := fun (d : Dev) => modChan m (fun ch => { ch with posted := ch.posted.eraseIdx i }) d
          if !dvDescOk d ctx (parseDv bs) then dvHaltFault m ctx dvErrDesc dvDesc addr [] (controlHalts m r (used d))
          else
            match controlWork m ctx kind r d with
            | .ok d => used d
            | .error .wait => d
            | .error s => if s = .err { cls := dvBuserr } then d else dvEndFailed m ctx s (controlHalts m r (used d))

/-- RESUME (R305). -/
def execResume (chan : Nat) (s : State) : Host.Outcome State Fault Refusal :=
  onDev (chanKnown chan) (dvControl chan 3) s

/-- FLUSH (R305). -/
def execFlush (chan : Nat) (s : State) : Host.Outcome State Fault Refusal :=
  onDev (chanKnown chan) (dvControl chan 4) s

/-! ### Completion, retries, polls and grants -/

/-- DV_COMPLETE (R297): the running descriptor's work is done. -/
def dvFinish (m : Nat) (d : Dev) : Dev :=
  match chanOwner d m, (chanAt d m).run with
  | some ctx, some r =>
    if !r.halted && r.retryAt.isNone && dvWorkDone (parseDv r.desc) r then
      match dvEnd m ctx r (chanAt d m).doneBytes d with
      | .ok d => modChan m (fun ch => { ch with run := none }) d
      | .error s => dvEndFailed m ctx s d
    else d
  | _, _ => d

def execDvComplete (chan : Nat) (s : State) : Host.Outcome State Fault Refusal :=
  onDev (chanKnown chan) (dvFinish chan) s

/-- DV_RETRY (R304): the wait is over and the access is tried again. -/
def dvRetryAt (m : Nat) (err : Option BusErr) (d : Dev) : Dev :=
  match (chanAt d m).run with
  | none => d
  | some r =>
    match r.retryAt with
    | none => d
    | some t =>
      if nowNs d < t then d
      else
        let y := dvServe m err (modRun m (fun r => { r with retryAt := none }) d)
        if r.due = [] then dvBeat m y.1 y.2 else y.2

def execDvRetry (chan : Nat) (err : Option BusErr) (s : State) : Host.Outcome State Fault Refusal :=
  onDev (chanKnown chan) (dvRetryAt chan err) s

/-- DV_PACE_POLL (R300): a paused paced channel reads the peer index. -/
def dvPoll (m : Nat) (d : Dev) : Dev :=
  match chanOwner d m, (chanAt d m).run with
  | some _, some r =>
    if (parseDv r.desc).pace ≠ 0 ∧ r.paused ∧ !r.halted ∧ r.due = [] then
      dvSettle m 8 (modRun m (fun r => { r with due := [.peer] }) d)
    else d
  | _, _ => d

def execDvPacePoll (chan : Nat) (s : State) : Host.Outcome State Fault Refusal :=
  onDev (chanKnown chan) (dvPoll chan) s

/-- The level of a ready channel (R301). -/
def dvLevel (x : DvDesc) : Nat := if x.kind = 1 ∧ x.sched then 3 else x.prio

/-- The channel that an engine grants (R301): the highest level, an open bay first, then round-robin. -/
def dvPick (d : Dev) (engine : Nat) : Option (Nat × Nat) :=
  let ready := (List.range 16).filterMap (fun c : Nat =>
    (dvReady d (16 * engine + c)).map (fun (y : Nat × DvDesc × DvRun) => (c, dvLevel y.2.1, schedOpen d y.1 y.2.1)))
  let top := ready.foldl (fun l y => max l y.2.1) 0
  let at_ := ready.filter (fun y => y.2.1 == top)
  let at_ := if top == 3 && at_.any (·.2.2) then at_.filter (·.2.2) else at_
  let last := mapGet 0 d.dvRr (4 * engine + top)
  match at_.find? (fun y => decide (last ≤ y.1)), at_ with
  | some y, _ => some (y.1, top)
  | none, y :: _ => some (y.1, top)
  | none, [] => none

/-- The idle channels of an engine with a posted COPY or SEND start, and every channel makes its due accesses. -/
def dvEngine (engine : Nat) (err : Option BusErr) (d : Dev) : Option BusErr × Dev :=
  (List.range 16).foldl (fun y c => dvServe (16 * engine + c) y.1 (dvStart (16 * engine + c) [0, 1] y.2)) (err, d)

/-- DV_GRANT (R301): one beat of an engine. -/
def dvGrantAt (engine : Nat) (err : Option BusErr) (d : Dev) : Dev :=
  let y := dvEngine engine err d
  match dvPick y.2 engine with
  | none => y.2
  | some (c, level) =>
    dvBeat (16 * engine + c) y.1 { y.2 with dvRr := mapPut 0 (4 * engine + level) ((c + 1) % 16) y.2.dvRr }

def execDvGrant (engine : Nat) (err : Option BusErr) (s : State) : Host.Outcome State Fault Refusal :=
  onDev (decide (engine < 40)) (dvGrantAt engine err) s

/-! ### DV_POST (R290, R291, R194) -/

/-- DV_POST's work: `engine` is the module's engine number 2 × cluster + engine. A DV_CHANNEL record names the channel and
the descriptor address (R309). -/
def dvPostBody (engine channel addr : Nat) (j : Job) : Except Stop Job :=
  if 39 < engine ∨ 15 < channel ∨ addr % 64 ≠ 0 ∨ 2 ^ 48 ≤ addr then failCls cmdDecode
  else
    let m := 16 * engine + channel
    let ch := chanAt j.d m
    if ch.owner ≠ some j.ctx then failAddr dvChannel (packFields [(m, 16), (addr, 48)])
    else if 16 ≤ ch.posted.length then .error .wait
    else .ok { j with
      imm := true
      d := modChan m (fun ch => { ch with posted := ch.posted ++ [(addr, j.cmd.tag)] }) j.d }

def execDvPost (q : QCmd) (engine channel addr : Nat) (s : State) : Host.Outcome State Fault Refusal :=
  onDev (coreKnown q.core) (runCmd q [3] true false [] [] (dvPostBody engine channel addr)) s

end Sys2Proof.Machine
end

