-- ==== Sys2Proof/Machine/Fabric.lean ====
section
/-!
DEFINITION. Data packets at a hop and at their destination: forwarding and egress (16 R400, R411), delivery of
requests, replies, collectives and meta records (15 R385 to R389, 13 R318 to R321, 11 R271 to R273, 16 R417),
and the expiry of packets, transfers and tombstones.
-/

namespace Sys2Proof.Machine

/-! ### Forwarding (R382, R384, R388, R400) -/

def portKnown (p : Nat) : Bool := decide (p < 18)

/-- A data packet at its ingress: checked and delivered here or handed to its egress, or dropped. -/
def dataForward (port : Nat) (bs : List Byte) (d : Dev) : Dev :=
  let p := parseData bs
  let drop := fun (reason : Nat) (head : Bool) =>
    freeBuffer (some port) p.vc (flitsOf bs) (dropPkt (some port) reason head p d)
  if (portAt d port).state ≠ .routed ∨ bs.length < 64 then d
  else if !hcrcOk bs then drop dropHcrc false
  else if 2 < p.kind ∨ 4 < p.vc then drop dropType true
  else if !lengthOk bs then drop dropLength true
  else if expired (nowNs d) p.deadline then drop dropExpired true
  else
    let k : Pkt := { bytes := bs, ingress := some port, vc := p.vc, inVc := p.vc, at_ := nowNs d }
    if d.tab.modidValid && p.dmod == d.tab.modid then { d with fab := { d.fab with loc := d.fab.loc ++ [k] } }
    else
      match route d (some port) p.epoch p.vc p.dlx p.dmod with
      | none => drop dropNoroute true
      | some (out, vc, dlx) =>
        if carries (portAt d out) false then
          toEgress out { k with vc := vc, bytes := setHop vc dlx ((p.hops + 1) % 32) bs } d
        else drop dropLink true

def execDataPacketForward (port : Nat) (flits : List Byte) (s : State) : Host.Outcome State Fault Refusal :=
  onDev (portKnown port) (dataForward port flits) s

/-! ### Egress (R356 to R358, R408, R411) -/

/-- Whether a waiting packet is of a deadline that has passed or lies too far ahead (R388). -/
def pktExpired (d : Dev) (k : Pkt) : Bool :=
  if k.ctrl then
    let c := parseCtrl k.bytes
    !c.loc && expired (nowNs d) (ctrlDeadline (nowNs d) c.deadline)
  else expired (nowNs d) (parseData k.bytes).deadline

/-- A waiting packet is dropped at an egress. -/
def dropWaiting (port reason : Nat) (k : Pkt) (d : Dev) : Dev :=
  freeBuffer k.ingress k.inVc (flitsOf k.bytes)
    (if k.ctrl then dropCtrl (some port) reason d else dropPkt (some port) reason true (parseData k.bytes) d)

/-- Drops the waiting packets of an egress that `bad` names. -/
def dropEgress (port reason : Nat) (bad : Pkt → Bool) (d : Dev) : Dev :=
  let ks := (portAt d port).egress
  let d := modPort port (fun p => { p with egress := ks.filter (fun k => !bad k) }) d
  (ks.filter bad).foldl (fun d k => dropWaiting port reason k d) d

/-- Place of a source in the round robin: ingress ports, then this module. -/
def rrPlace (k : Pkt) : Nat := k.ingress.getD 18

/-- The oldest packet of a channel from one source, if it may leave now. -/
def egressHead (d : Dev) (port vc src : Nat) : Option Pkt :=
  let p := portAt d port
  match p.egress.find? (fun k => k.vc == vc && rrPlace k == src) with
  | none => none
  | some k =>
    let n := flitsOf k.bytes
    let room := if vc = 4 then n + 1 else n
    if carriesPkt p k && bayTakes d port k && fitsBay d p.half room
      && decide ((n : Int) ≤ credits p vc) then some k else none

/-- The packet that an egress grants: strict priority over channels, round robin over sources. -/
def egressPick (d : Dev) (port : Nat) : Option Pkt :=
  let rr := (portAt d port).rr
  [5, 3, 2, 1, 0, 4].findSome? (fun vc => (List.range 19).findSome? (fun i => egressHead d port vc ((rr + i) % 19)))

/-- Sends a granted packet. -/
def egressSend (port : Nat) (k : Pkt) (d : Dev) : Dev :=
  let n := flitsOf k.bytes
  let d := modPort port (fun p => { p with
    egress := p.egress.erase k
    rr := (rrPlace k + 1) % 19
    sent := p.sent.set k.vc ((p.sent.getD k.vc 0 + n) % 65536)
    out := k.bytes }) d
  freeBuffer k.ingress k.inVc n d

/-- EGRESS_GRANT: the deadlines again, then one packet. -/
def egressGrantAt (port : Nat) (d : Dev) : Dev :=
  let d := dropEgress port dropExpired (pktExpired d) d
  match egressPick d port with
  | none => d
  | some k => egressSend port k d

def execEgressGrant (port : Nat) (s : State) : Host.Outcome State Fault Refusal :=
  onDev (portKnown port) (egressGrantAt port) s

/-- PACKET_EXPIRY (R388). -/
def execPacketExpiry (port : Nat) (s : State) : Host.Outcome State Fault Refusal :=
  onDev (portKnown port) (fun d => dropEgress port dropExpired (pktExpired d) d) s

/-- PACKET_RESIDENCE (R388): in ACQUIRE or FREE nothing waits longer than 10 µs. -/
def execPacketResidence (port : Nat) (s : State) : Host.Outcome State Fault Refusal :=
  onDev (portKnown port) (fun d =>
    if d.kt.state = .acquire ∨ d.kt.state = .free then
      let old := fun (k : Pkt) => decide (k.at_ + 10000 < nowNs d)
      let here := fun (k : Pkt) => old k && k.ingress.getD port == port
      let ks := d.fab.loc.filter here
      let d := { d with fab := { d.fab with loc := d.fab.loc.filter (fun k => !here k) } }
      dropEgress port dropResidence old (ks.foldl (fun d k => dropWaiting port dropResidence k d) d)
    else d) s

/-! ### Replies (R386) -/

/-- The reply to a request; without a route, or an egress that carries it, it is dropped. -/
def sendReply (p : DataPkt) (status : Nat) (olds : List Byte) (d : Dev) : Dev :=
  let pay := if p.rva = 0 ∨ status ≠ 0 then [] else olds
  let r : DataPkt :=
    { vc := 2, kind := 1, epoch := d.tab.epoch, dmod := p.smod, smod := p.dmod, dctx := p.dctx, sctx := p.sctx,
      xid := p.xid, pidx := p.pidx, stag := p.stag, rva := p.rva, status := status, len := pay.length,
      deadline := nowNs d + 100000, payload := payloadFlits pay }
  match inject { bytes := packData r, vc := 2 } r.dmod none d with
  | some d => d
  | none =>
    let reason := if (route d none d.tab.epoch 2 false r.dmod).isNone then dropNoroute else dropLink
    dropPkt none reason true r d

/-! ### Applying a packet (R271, R273, R332, R385) -/

/-- Why a packet does not apply. -/
inductive RFail where
  | wait
  | xlate
  | operand
  | span
  | poison
  | consumed (addr : Nat)
  deriving DecidableEq, Repr

/-- DP.STATUS of a failure. -/
def RFail.status : RFail → Nat
  | .wait => 0 | .xlate => 1 | .operand => 2 | .span => 3 | .poison => 4 | .consumed _ => 1

/-- Translation for a fabric access; a page marked NOREMOTE refuses it. -/
def remoteXlate (ctx : Nat) (va : Int) (d : Dev) : Except RFail (Bool × Nat × Dev) :=
  match xlate 20 ctx true va d with
  | .error (.err e) => if e.cls = poisonCls then .error (.consumed e.addr) else .error .xlate
  | .error _ => .error .wait
  | .ok (host, pa, pte, d) => if pteNoRemote pte then .error .xlate else .ok (host, pa, d)

/-- A plain write, line by line. -/
def remoteWrite (ctx : Nat) : Nat → Nat → List Byte → Dev → Except RFail Dev
  | 0, _, _, d => .ok d
  | fuel + 1, va, bs, d =>
    if bs = [] then .ok d
    else
      let k := 64 - va % 64
      match remoteXlate ctx va d with
      | .error e => .error e
      | .ok (host, pa, d) =>
        match deckVisit host pa (min k bs.length) d with
        | .error _ => .error .wait
        | .ok d => remoteWrite ctx fuel (va + k) (bs.drop k) (writeMem host pa (bs.take k) d)

/-- A line that a poisoned packet poisons, with the record that names its deck and address (R244): DECK_UE, which the
model chose. -/
def packetPoison (host : Bool) (line : Nat) (d : Dev) : Dev :=
  let k := homeDeck d.hbmc host line
  poisonLine host line (raiseFields deckUe (unitCluster k) none [(k, 5), (line, 48)] d)

/-- Poisons the lines of a range of device-virtual addresses (R273, R385); a line that a glue-up holds makes the packet
wait. -/
def remotePoison (ctx : Nat) : Nat → Nat → Nat → Dev → Except RFail Dev
  | 0, _, _, d => .ok d
  | fuel + 1, va, n, d =>
    if n = 0 then .ok d
    else
      let k := min n (64 - va % 64)
      match remoteXlate ctx va d with
      | .error .wait => .error .wait
      | .error _ => remotePoison ctx fuel (va + k) (n - k) d
      | .ok (host, pa, d) =>
        match deckVisitW host pa k d with
        | .error _ => .error .wait
        | .ok d => remotePoison ctx fuel (va + k) (n - k) (packetPoison host (lineOf pa) d)

/-- Poisons the ranges (address, bytes) that the poisoned flits of a packet target. -/
def poisonAll (ctx : Nat) : List (Nat × Nat) → Dev → Except RFail Dev
  | [], d => .ok d
  | t :: ts, d =>
    match remotePoison ctx 3 t.1 t.2 d with
    | .error e => .error e
    | .ok d => poisonAll ctx ts d

/-- Operation, operand size and target width of DP.ROP 1 to 9. -/
def ropOf (rop : Nat) : Option (AtomicOp × Nat × Nat) :=
  match rop with
  | 1 => some (.sadd, 32, 32)
  | 2 => some (.iadd, 8, 8)
  | 3 => some (.ior, 8, 8)
  | 4 => some (.maxi, 8, 8)
  | 5 => some (.mini, 8, 8)
  | 6 => some (.iadds, 8, 8)
  | 7 => some (.iandn, 8, 8)
  | 8 => some (.swap, 8, 8)
  | 9 => some (.cas, 16, 8)
  | _ => none

/-- The span record of an SADD as the deck takes it: at 64 bits the low word sign-extends (R66). -/
def remoteSpan (ctx : Nat) (bs : List Byte) (d : Dev) : Except RFail (List Byte) :=
  let x := parseSpan bs
  match redLoad 20 ctx x.rslot d with
  | .ok (r, _) => .ok (if r.w = 64 then packSpan { x with i := ofTwos 64 (toTwos 64 x.i) } else bs)
  | .error .wait => .error .wait
  | .error _ => .ok bs

/-- The operations of a packet in order, with the old values. -/
def remoteOps (ctx : Nat) (op : AtomicOp) (tw : Nat) : List (List Byte) → Nat → Dev → Except RFail (List Byte × Dev)
  | [], _, d => .ok ([], d)
  | c :: cs, va, d =>
    match remoteXlate ctx va d with
    | .error e => .error e
    | .ok (host, pa, d) =>
      match deckVisit host pa tw d with
      | .error _ => .error .wait
      | .ok d' =>
        let d := if host then hostReadDone ctx d pa tw d' else d'
        match (if op = .sadd then remoteSpan ctx c d else .ok c) with
        | .error e => .error e
        | .ok x =>
        let a : DeckOp := if op = .cas then { op := op, width := tw, opnd := leAt x 8 8, cmp := leAt x 0 8 }
          else { op := op, width := tw, opnd := ofLe x }
        match deckAct ctx host pa a d with
        | .error .operand => .error .operand
        | .error .poison => .error .poison
        | .error _ => .error .span
        | .ok (old, d) =>
          match remoteOps ctx op tw cs (va + tw) d with
          | .error e => .error e
          | .ok (olds, d) => .ok (if op = .sadd then olds else leBytes tw old ++ olds, d)

/-! ### The meta exchange (R417) -/

/-- Combines two meta records: maxima, the sum of counts, and equality of the definition. -/
def metaCombine (x y : BitVec 256) : BitVec 256 :=
  let a := x.toNat
  let b := y.toNat
  let e := max (ofTwos 16 (bitsOf a 15 0)) (ofTwos 16 (bitsOf b 15 0))
  let n := bitsOf a 107 64 + bitsOf b 107 64
  let same := bitsOf a 195 128 == bitsOf b 195 128 && bitOf a 197 == bitOf b 197
  let bad := bitOf a 196 || bitOf b 196 || decide (2 ^ 44 ≤ n) || !same
  BitVec.ofNat 256 (packFields [(toTwos 16 e, 16), (max (bitsOf a 23 16) (bitsOf b 23 16), 8),
    (max (bitsOf a 31 24) (bitsOf b 31 24), 8), (0, 32), (n % 2 ^ 44, 44), (0, 20), (bitsOf a 195 128, 68),
    (bit01 bad, 1), (bitsOf a 197 197, 1)])

/-- An entry of the exchange table. -/
def exchAt (l : List Exch) (ctx slot : Nat) : Option Exch := l.find? (fun e => e.ctx == ctx && e.slot == slot)

/-- An exchange table or list of handed records without a key. -/
def exchDrop (l : List Exch) (ctx slot : Nat) : List Exch := l.filter (fun e => !(e.ctx == ctx && e.slot == slot))

/-- One meta record arrives: the first for its key allocates an entry from the module's own record, which the
packet awaits. -/
def metaArrive (ctx slot : Nat) (x : BitVec 256) (d : Dev) : Except RFail Dev :=
  if 1023 < slot then .error .operand
  else
    match redLoad 20 ctx slot d with
    | .error (.err e) => if e.cls = poisonCls then .error (.consumed e.addr) else .error .xlate
    | .error _ => .error .wait
    | .ok (r, d) =>
      if !r.isOpen || !r.hall then .error .operand
      else
        match exchAt d.fab.exch ctx slot with
        | some e =>
          let e' := { e with mrec := metaCombine e.mrec x }
          .ok { d with fab := { d.fab with exch := d.fab.exch.map (fun f => if f = e then e' else f) } }
        | none =>
          if 1024 ≤ d.fab.exch.length then .error .operand
          else
            match exchAt d.fab.waits ctx slot with
            | none => .error .wait
            | some o =>
              let e' := { o with mrec := metaCombine o.mrec x }
              .ok { d with fab := { d.fab with exch := d.fab.exch ++ [e'] } }

/-- The meta records of a packet, one slot each. -/
def metaAll (ctx : Nat) : List (List Byte) → Nat → Dev → Except RFail Dev
  | [], _, d => .ok d
  | c :: cs, slot, d =>
    match metaArrive ctx slot (BitVec.ofNat 256 (ofLe c)) d with
    | .error e => .error e
    | .ok d => metaAll ctx cs (slot + 1) d

/-- A reduction fails outside any command of this module (R76). -/
def failReduction (ctx slot cls : Nat) (d : Dev) : Dev :=
  faultCtx ctx { cls := cls, unit := unitSwitch, addr := slot } (setRedError 20 ctx slot d)

/-- The exchange is over: the combined fields go into the record, which resolves or fails (R55, R61, R64, R65). -/
def metaResolve (ctx slot : Nat) (x : BitVec 256) (d : Dev) : Except RFail Dev :=
  let d := { d with fab := { d.fab with
    exch := exchDrop d.fab.exch ctx slot, waits := exchDrop d.fab.waits ctx slot } }
  let a := x.toNat
  match redLoad 20 ctx slot d with
  | .error (.err e) => .ok (faultCtx ctx { cls := e.cls, unit := unitSwitch, addr := e.addr } d)
  | .error _ => .error .wait
  | .ok (r, d) =>
    if bitOf a 196 then .ok (failReduction ctx slot spanMismatch d)
    else
      let done :=
        if bitOf a 197 then surveyDone 20 ctx slot { r with surveyA := bitsOf a 23 16, surveyB := bitsOf a 31 24 } d
        else if r.k < bitsOf a 107 64 then failRedAt spanCount slot d
        else closeDone 20 ctx slot { r with emax := ofTwos 16 (bitsOf a 15 0), count := bitsOf a 107 64 } d
      match done with
      | .ok d => .ok d
      | .error (.err e) => .ok (failReduction ctx slot e.cls (e.dev.getD d))
      | .error _ => .error .wait

/-- META_EXCHANGE_DONE: the signal of the transfer that RED.COLLECTIVE names resolves its reductions. -/
def metaDone (ctx : Nat) (xid : BitVec 32) : List Exch → Dev → Except RFail Dev
  | [], d => .ok d
  | e :: es, d =>
    if e.ctx ≠ ctx then metaDone ctx xid es d
    else
      match redLoad 20 ctx e.slot d with
      | .error .wait => .error .wait
      | .error _ => metaDone ctx xid es d
      | .ok (r, _) =>
        if r.collective ≠ xid.toNat then metaDone ctx xid es d
        else
          match metaResolve ctx e.slot e.mrec d with
          | .error e => .error e
          | .ok d => metaDone ctx xid es d

/-! ### Delivery -/

/-- Bytes of the target that payload flit `f` of a packet covers. -/
def flitTarget (p : DataPkt) (f : Nat) : Nat × Nat :=
  if p.rop = 0 then (p.dva + 64 * f, min 64 (p.len - 64 * f))
  else
    match ropOf p.rop with
    | some (_, ow, tw) => (p.dva + 64 * f * tw / ow, min 64 (p.len - 64 * f) * tw / ow)
    | none => (0, 0)

/-- The lines that the poisoned flits of a packet target become poisoned (R243, R273). -/
def flitPoison (p : DataPkt) (d : Dev) : Except RFail Dev :=
  poisonAll p.dctx ((bitList 8 0 p.poison).map (flitTarget p)) d

/-- What a packet does at its destination: the old values and the state, or its failure, which changes nothing
but the lines of poisoned flits. -/
def applyPacket (p : DataPkt) (d : Dev) : Except RFail (List Byte × Dev) :=
  let bs := p.payload.take p.len
  if p.rop = 0 then
    match remoteWrite p.dctx 10 p.dva bs d with
    | .error e => .error e
    | .ok d => (flitPoison p d).map (fun d => ([], d))
  else if p.rop = 10 then
    if p.len % 32 ≠ 0 ∨ 1023 < p.dva then .error .operand
    else if p.poison ≠ 0 then .error .poison
    else match metaAll p.dctx (chunksOf 16 32 bs) p.dva d with
      | .error e => .error e
      | .ok d => .ok ([], d)
  else
    match ropOf p.rop with
    | none => .error .operand
    | some (op, ow, tw) =>
      if p.len % ow ≠ 0 then .error .operand
      else if p.poison ≠ 0 then .error (match flitPoison p d with | .error e => e | .ok _ => .poison)
      else remoteOps p.dctx op tw (chunksOf 64 ow bs) p.dva d

/-- The records of a failed packet (R273, R332) and the poison that its marks leave. -/
def remoteFailed (p : DataPkt) (e : RFail) (d : Dev) : Dev :=
  let x := [(p.smod, 16), (p.sctx, 12), (e.status, 8)]
  let atom := fun d => if p.rop = 0 then d else raiseFields remoteAtomic unitSwitch (some p.dctx) x d
  match e with
  | .wait => d
  | .xlate => atom (raise xlateRemote unitSwitch (some p.dctx) p.dva (packFields x) d)
  | .consumed a => faultCtx p.dctx { cls := poisonCls, unit := unitSwitch, addr := a } d
  | .poison => atom (match flitPoison p d with | .ok d => d | .error _ => d)
  | _ => atom d

/-- The reply of a request that asks for one. -/
def ackOf (p : DataPkt) (status : Nat) (olds : List Byte) (d : Dev) : Dev :=
  if p.kind = 0 ∧ p.ack then sendReply p status olds d else d

/-- SM3 of a packet (R516). -/
def pktSm3 (bs : List Byte) (p : DataPkt) : BitVec 256 := Config.sm3 ((bs.drop 8).take 24 ++ p.payload.take p.len)

/-- KZ.A of an arrival. -/
def kzArrivalA (smod sctx rop : Nat) (xid : BitVec 32) : Nat :=
  packFields [(smod, 16), (sctx, 12), (rop, 4), (xid.toNat, 32)]

/-- The ARRIVAL record of a transfer (R515). -/
def kzArrival (t : Track) (withheld : Bool) (d : Dev) : Dev :=
  kzFor 4 t.dctx (kzArrivalA t.smod t.sctx t.rop t.xid) (packFields [(t.count, 31), (bit01 withheld, 1)])
    (beBytes 32 t.fold) d

/-- The PACKET record of an unsignalled request or a reply (R515). -/
def kzPacket (ctx : Nat) (bs : List Byte) (p : DataPkt) (d : Dev) : Dev :=
  if d.kz.pkt then kzFor 5 ctx (kzArrivalA p.smod p.sctx p.rop p.xid) p.pidx (beBytes 32 (pktSm3 bs p).toNat) d else d

/-- Whether a tracking entry is that of a transfer. -/
def Track.isFor (t : Track) (smod sctx : Nat) (xid : BitVec 32) : Bool := t.smod == smod && t.sctx == sctx && t.xid == xid

/-- Replaces the entry of a transfer, or adds it. -/
def putTrack (t : Track) (d : Dev) : Dev :=
  let l := d.fab.tracks
  let l := if l.any (fun u => u.isFor t.smod t.sctx t.xid) then
      l.map (fun u => if u.isFor t.smod t.sctx t.xid then t else u) else l ++ [t]
  { d with fab := { d.fab with tracks := l } }

/-- The generation check of a signal (R314, R316, R319): 0 accepted, 1 stale, 2 ahead, 3 not open to it; and the physical
flag. -/
def signalCheck (ctx v : Nat) (g : Nat) (d : Dev) : Except RFail (Nat × Nat) :=
  match flagXl d 20 ctx v with
  | .error (.err e) => if e.cls = poisonCls then .error (.consumed e.addr) else .ok (3, 0)
  | .error _ => .error .wait
  | .ok k =>
    let f := pflagAt d k
    if !f.remote then .ok (3, k)
    else
      let x := (g + 256 - f.gen.toNat) % 256
      .ok (if x = 0 then 0 else if x < 128 then 2 else 1, k)

/-- The count of a transfer's last packet, 0 standing for 2^32 (R389). -/
def totalOf (n : Nat) : Nat := if n = 0 then 2 ^ 32 else n

/-- A counted packet: the fold, and the signal on physical flag `k` once the last packet has been written and the count
is complete (R318). -/
def countPacket (t : Track) (k : Nat) (bs : List Byte) (p : DataPkt) (d : Dev) : Except RFail Dev :=
  let t := { t with
    count := (t.count + 1) % 2 ^ 32, fold := (t.fold + (pktSm3 bs p).toNat) % 2 ^ 256, lastIn := t.lastIn || p.last }
  if t.lastIn && t.total == some t.count then
    let d := flagSetKey k none d
    match (if t.rop = 10 then metaDone t.dctx t.xid d.fab.exch d else .ok d) with
    | .error e => .error e
    | .ok d => .ok (kzArrival t false (putTrack { t with tomb := some (nowNs d + 100000) } d))
  else .ok (putTrack t d)

/-- A packet of a signalled transfer whose entry is found (R318, R319, R389); none while it waits. -/
def arriveTracked (k : Pkt) (p : DataPkt) (t : Track) (d : Dev) : Option Dev :=
  let total := if p.last then some p.pcount else t.total
  if (total.map (fun n => decide (totalOf n ≤ p.pidx))).getD false then
    some (dropPkt k.ingress dropIndex true p (countStale p.dctx d))
  else
    let now := nowNs d
    let t := { t with
      pktAt := now, lastAt := if p.last then now else t.lastAt, total := total, dctx := p.dctx,
      signal := p.signal % 2 ^ 14, rop := p.rop }
    let d1 := putTrack t d
    match signalCheck p.dctx (p.signal % 2 ^ 14) p.siggen d1 with
    | .error .wait => none
    | .error e => some (ackOf p e.status [] (remoteFailed p e d1))
    | .ok (0, key) =>
      let d1 := flagVisit 20 p.dctx d1 (p.signal % 2 ^ 14)
      (match applyPacket p d1 with
       | .error .wait => none
       | .error e => some (ackOf p e.status [] (remoteFailed p e d1))
       | .ok (olds, d) =>
         match countPacket t key k.bytes p d with
         | .ok d => some (ackOf p 0 olds d)
         | .error _ => none)
    | .ok (n, _) =>
      let x := packFields [(p.smod, 16), (p.sctx, 12), (p.xid.toNat, 32)]
      let d2 :=
        if n = 1 then countStale p.dctx d1
        else raise (if n = 2 then flagGen else flagRemote) unitSwitch (some p.dctx) (p.signal % 2 ^ 14) x d1
      some (ackOf p 5 [] d2)

/-- A packet of a transfer at its destination after its CRC has passed; none while it waits. One for a context that is free or
faulted is dropped, which no reply tells its sender (R387, R391, R487). -/
def arrivePacket (k : Pkt) (p : DataPkt) (d : Dev) : Option Dev :=
  let st := (ctxAt d p.dctx).state
  if st = .free ∨ st = .faulted then some (remoteFailed { p with rop := 0 } .xlate d)
  else if bitOf p.signal 15 then
    match d.fab.tracks.find? (fun t => t.isFor p.smod p.sctx p.xid) with
    | some t => if t.tomb.isSome then some (countStale p.dctx d) else arriveTracked k p t d
    | none =>
      if 16384 ≤ d.fab.tracks.length then
        some (raiseFields trackFull unitSwitch (some p.dctx) [(p.smod, 16), (p.sctx, 12), (p.xid.toNat, 32)] d)
      else arriveTracked k p { smod := p.smod, sctx := p.sctx, xid := p.xid } d
  else
    match applyPacket p d with
    | .error .wait => none
    | .error e => some (ackOf p e.status [] (remoteFailed p e d))
    | .ok (olds, d) => some (ackOf p 0 olds (kzPacket p.dctx k.bytes p d))

/-- A reply at the source module (R386, R273); none while it waits. -/
def arriveReply (k : Pkt) (p : DataPkt) (d : Dev) : Option Dev :=
  let st := (ctxAt d p.sctx).state
  let x := [(p.smod, 16), (p.sctx, 12), (p.status, 8)]
  if st = .free ∨ st = .faulted then some (raise xlateRemote unitSwitch (some p.sctx) p.rva (packFields x) d)
  else if p.status ≠ 0 then
    some (faultCtx p.sctx { cls := remoteAtomic, unit := unitSwitch, tag := p.stag, addr := packFields x } d)
  else
    let d' := if p.rva = 0 then Except.ok d else remoteWrite p.sctx 10 p.rva (p.payload.take p.len) d
    let q := { p with dctx := p.sctx, rop := 0, dva := p.rva }
    match (match d' with
      | .ok d => if p.rva = 0 then Except.ok d else flitPoison q d
      | .error e => .error e) with
    | .error .wait => none
    | .error e => some (remoteFailed q e d)
    | .ok d => some (kzPacket p.sctx k.bytes p d)

/-- The oldest delivered data packet that `f` selects. -/
def nextLocal (f : DataPkt → Bool) (d : Dev) : Option Pkt :=
  d.fab.loc.find? (fun k => !k.ctrl && f (parseData k.bytes))

/-- Takes the oldest delivered packet that `f` selects: its CRC, its deadline again (R388), then its work, and its buffer is
freed. -/
def deliver (f : DataPkt → Bool) (work : Pkt → DataPkt → Dev → Option Dev) (d : Dev) : Dev :=
  match nextLocal f d with
  | none => d
  | some k =>
    let p := parseData k.bytes
    let d0 := { d with fab := { d.fab with loc := d.fab.loc.erase k } }
    let free := freeBuffer k.ingress k.inVc (flitsOf k.bytes)
    if !dataCrcOk k.bytes then free (dropPkt k.ingress dropCrc true p d0)
    else if expired (nowNs d) p.deadline then free (dropPkt k.ingress dropExpired true p d0)
    else
      match work k p d0 with
      | none => d
      | some d => free d

/-- REQUEST (R385). -/
def execRequest (s : State) : Host.Outcome State Fault Refusal :=
  onDev true (deliver (fun p => p.kind == 0 && p.rop != 10) arrivePacket) s

/-- REPLY (R386). -/
def execReply (s : State) : Host.Outcome State Fault Refusal :=
  onDev true (deliver (fun p => p.kind == 1) arriveReply) s

/-- COLLECTIVE (R405, R415). -/
def execCollective (s : State) : Host.Outcome State Fault Refusal :=
  onDev true (deliver (fun p => p.kind == 2 && p.rop != 10) arrivePacket) s

/-- META (R417). -/
def execMetaCombine (s : State) : Host.Outcome State Fault Refusal :=
  onDev true (deliver (fun p => p.kind != 1 && p.rop == 10) arrivePacket) s

/-! ### Expiry (R320, R321, R315) -/

/-- Whether a live transfer has timed out: 100 µs after its last packet, or 100 ms without a packet. -/
def xferOver (t : Track) (now : Nat) : Bool :=
  t.tomb.isNone && ((t.total.isSome && decide (t.lastAt + 100000 ≤ now)) || decide (t.pktAt + 100000000 ≤ now))

/-- XFER_TIMEOUT (R320): the signal is withheld and the entry tombstoned. -/
def xferTimeoutAt (smod sctx : Nat) (xid : BitVec 32) (d : Dev) : Dev :=
  match d.fab.tracks.find? (fun t => t.isFor smod sctx xid) with
  | none => d
  | some t =>
    if xferOver t (nowNs d) then
      let x := [(smod, 16), (sctx, 12), (xid.toNat, 32), (t.count, 32), (t.total.getD 0, 32)]
      let d := putTrack { t with tomb := some (nowNs d + 100000) } d
      kzArrival t true (raiseFields xferTimeoutCls unitSwitch (some t.dctx) x d)
    else d

def execXferTimeout (smod sctx : Nat) (xid : BitVec 32) (s : State) : Host.Outcome State Fault Refusal :=
  onDev true (xferTimeoutAt smod sctx xid) s

/-- TOMBSTONE_EXPIRY (R321). -/
def execTombstoneExpiry (s : State) : Host.Outcome State Fault Refusal :=
  onDev true (fun d =>
    let now := nowNs d
    { d with fab := { d.fab with
      tracks := d.fab.tracks.filter (fun t => match t.tomb with | some u => decide (now < u) | none => true)
      tombs := d.fab.tombs.filter (fun t => decide (now < t.until_)) } }) s

/-- FLAG_TOMB_EXPIRY (R315): 100 µs on, the flag is free. -/
def execFlagTombExpiry (cluster pflag : Nat) (s : State) : Host.Outcome State Fault Refusal :=
  onDev (decide (cluster < 20) && decide (pflag < 4096)) (fun d =>
    let k := cluster * 4096 + pflag
    let f := pflagAt d k
    if f.tomb && decide (f.tombAt + 100000 ≤ nowNs d) then modPflag k (fun f => { f with tomb := false }) d else d) s

end Sys2Proof.Machine
end

