-- ==== Sys2Proof/Machine/Tick.lean ====
section
/-!
DEFINITION. One nanosecond of keystone time (14 R338, R339, R343): what a step does when no command
waits. Log entry 2.
-/

namespace Sys2Proof.Machine

/-- The part of the current slew that falls on the next nanosecond: the slew is spread evenly over a
microsecond (R343). -/
def slewShare (k : Keystone) : Int :=
  if k.slewAt < 1000 then k.slew * (k.slewAt + 1) / 1000 - k.slew * k.slewAt / 1000 else 0

/-- A slew of at most 100 ppm for the next microsecond: what is left of the correction toward the external reference
(R348). -/
def refSlew (k : Keystone) : Keystone :=
  if k.slewAt < 1000 || k.refLeft = 0 then k
  else
    let s := max (-6553) (min 6553 k.refLeft)
    { k with slew := s, slewAt := 0, refLeft := k.refLeft - s }

/-- A value kept within ±6,554 fraction units (R343). -/
def slewClamp (x : Int) : Int := max (-6554) (min 6554 x)

/-- A module without a parent keeps its last rate (R352). -/
def rateSlew (k : Keystone) : Keystone :=
  if k.slewAt < 1000 || k.rate = 0 || !(k.state == .holdover || k.state == .free) then k
  else { k with slew := slewClamp k.rate, slewAt := 0 }

/-- Keystone time counts while the 60 V input is present (R339). -/
def tick (d : Dev) : Dev :=
  if d.pwr.phase = .unpowered then d
  else
    let k := rateSlew (refSlew d.kt)
    { d with kt := { k with
      now := ((k.now : Int) + 65536 + slewShare k).toNat % 2 ^ 80
      slewAt := min 1000 (k.slewAt + 1) } }

end Sys2Proof.Machine
end

