-- ==== Sys2Proof/Machine/Time.lean ====
section
/-!
DEFINITION. Keystone time over the links (14 R341 to R354): marks, the servo, the choice of parent, lock, holdover
and held bays; and the apply times of timetables, routing leaves and clock plans (14 R359, R367, 16 R402).
-/

namespace Sys2Proof.Machine

/-! ### What the module offers -/

/-- Whether the module is its own root. -/
def isRoot (k : Keystone) : Bool := k.state == .master || k.state == .extref

/-- Codes of R349. -/
def ktStateNo : KtState → Nat
  | .master => 0 | .extref => 1 | .acquire => 2 | .locked => 3 | .holdover => 4 | .free => 5

/-- An error bound without limit. -/
def errUnbounded : Nat := 0xFFFFFFFF

/-- The error bound against the root, ps (R349, R352): 50 ps for each millisecond of holdover. -/
def ktErrPs (d : Dev) : Nat :=
  match d.kt.state with
  | .master | .extref => 0
  | .locked => min d.kt.root.errPs errUnbounded
  | .holdover => min (d.kt.holdBase + 50 * (nowNs d - d.kt.holdSince) / 1000000) errUnbounded
  | _ => errUnbounded

/-- The root fields, hops and state that the module's own marks carry (R341, R346). -/
def ownOffer (serial : BitVec 64) (d : Dev) : Offer :=
  if isRoot d.kt then
    { prio := d.kt.prio, serial := serial, rootId := if d.tab.modidValid then d.tab.modid else 0,
      rootIdValid := d.tab.modidValid, rootSeq := d.kt.rootSeq, hops := 0, errPs := 0, state := ktStateNo d.kt.state }
  else { d.kt.root with errPs := ktErrPs d, state := ktStateNo d.kt.state }

/-- A stamp of the phase interpolator, in steps of 1/64 ns (R342). -/
def stamp (d : Dev) : Nat := d.kt.now / 1024 * 1024

/-- Whether a port's link is up (R375). -/
def linkUp (p : Port) : Bool := p.state == .localSt || p.state == .routed

/-! ### TIME_MARK_SEND (R341) -/

/-- Body of a mark. -/
def markBody (o : Offer) (p : Port) (seqNo t : Nat) : List Byte :=
  leBytes 8 (t / 65536)
  ++ leBytes 8 (packFields [(t % 65536, 16), (seqNo, 16), (o.rootId, 16), (o.prio, 8), (o.hops, 5), (o.state, 3)])
  ++ leBytes 8 (p.rxTime / 65536)
  ++ leBytes 8 (packFields [(p.rxTime % 65536, 16), (p.rxSeq, 16), (o.errPs, 32)])
  ++ leBytes 8 (packFields [(o.rootSeq, 32), (bit01 o.rootIdValid, 1)])
  ++ leBytes 8 o.serial.toNat

/-- One mark per keystone microsecond on every link that is up; a root counts its marks. -/
def sendMark (serial : BitVec 64) (port : Nat) (d : Dev) : Dev :=
  let p := portAt d port
  let due := match p.txStamps with
    | [] => true
    | x :: _ => x.2 / 65536000 != d.kt.now / 65536000
  if !linkUp p || !due then d
  else
    let d := if isRoot d.kt then { d with kt := { d.kt with rootSeq := (d.kt.rootSeq + 1) % 2 ^ 32 } } else d
    let seqNo := (p.txSeq + 1) % 65536
    let t := stamp d
    let bs := packCtrl { vc := 5, typ := 1, loc := true, sunasg := !d.tab.modidValid, smod := d.tab.modid,
                         body := markBody (ownOffer serial d) p seqNo t }
    modPort port (fun p => { p with txSeq := seqNo, txStamps := ((seqNo, t) :: p.txStamps).take 16, out := bs }) d

def execTimeMarkSend (port : Nat) (s : State) : Host.Outcome State Fault Refusal :=
  onFuse (portKnown port) (fun f d => sendMark f.serial port d) s

/-! ### The parent (R345 to R347) -/

/-- Eligibility as a parent. -/
def eligible (d : Dev) (port : Nat) : Bool :=
  let p := portAt d port
  let now := nowNs d
  linkUp p && decide (64 ≤ p.marks) && decide (now ≤ p.lastMark + 3000) && decide (now ≤ p.rootSeqAt + 10000)
    && decide (p.offer.hops < 31)

/-- Order of offered roots (R344). -/
def rootKey (prio : Nat) (serial : BitVec 64) : Nat := prio * 2 ^ 64 + serial.toNat

/-- Order of candidate parents (R346); ports are tried in rising number. -/
def parentKey (d : Dev) (port : Nat) : Nat :=
  let o := (portAt d port).offer
  (rootKey o.prio o.serial * 32 + o.hops) * 2 ^ 32 + o.errPs

/-- The best of the eligible ports, the lowest number on a tie. -/
def bestPort (d : Dev) : Option Nat :=
  ((List.range 18).filter (eligible d)).foldl (fun b p =>
    match b with
    | none => some p
    | some q => if parentKey d p < parentKey d q then some p else some q) none

/-- Whether the module's own pair is the lowest, which the ports may relay back (R344, R346). -/
def ownRoot (serial : BitVec 64) (d : Dev) : Bool :=
  decide (d.kt.prio < 0xFF) && ((List.range 18).filter (eligible d)).all (fun p =>
    decide (rootKey d.kt.prio serial ≤ rootKey (portAt d p).offer.prio (portAt d p).offer.serial))

/-- Whether a module to which no port offers a root may be its own: KT.PRIO admits it, or every fabric port is DARK
(R344). -/
def mayRoot (d : Dev) : Bool := decide (d.kt.prio < 0xFF) || d.ports.all (fun x => x.2.state == .dark)

/-- Holds or runs the reserved bays by the error bound: a hold that begins raises TIME_HOLD, and one that ends lets them run
from the next bay boundary (R353). -/
def holdBays (d : Dev) : Dev :=
  let e := ktErrPs d
  let exceeded := decide (2000 < e)
  let d' := { d with kt := { d.kt with
    bayHold := exceeded
    bayFrom := if d.kt.bayHold && !exceeded then (nowNs d / 128 + 1) * 128 else d.kt.bayFrom } }
  if exceeded && !d.kt.bayHold then
    raiseFields timeHold unitKeystone none [(e, 32), (ktStateNo d.kt.state, 3)] d'
  else d'

/-- A keystone island that follows no external reference (R348). -/
def dropRef (k : Keystone) : Keystone :=
  { k with refLocked := false, refLost := false, refLeft := 0, lastSecond := none, lastPps := none, code := none }

/-- Takes a state, a parent and a root; another root raises TIME_ROOT (R347, R369), and only a root keeps its reference. -/
def takeRoot (st : KtState) (parent : Option Nat) (root : Offer) (old : Offer) (d : Dev) : Dev :=
  let k := if st = .master ∨ st = .extref then d.kt else dropRef d.kt
  let d := { d with kt := { k with state := st, parent := parent, root := root } }
  let d := if old.serial = root.serial ∧ old.prio = root.prio then d
    else raiseFields timeRoot unitKeystone none
      [(old.serial.toNat, 64), (root.serial.toNat, 64), (root.hops, 5)] d
  holdBays d

/-- What the parent offers, seen from here: hops one more, its bound and the 63 ps of one hop (R349). -/
def childOffer (o : Offer) : Offer := { o with hops := o.hops + 1, errPs := min (o.errPs + 63) errUnbounded }

/-- The module's own root fields. -/
def selfOffer (serial : BitVec 64) (d : Dev) : Offer :=
  { prio := d.kt.prio, serial := serial, rootId := if d.tab.modidValid then d.tab.modid else 0,
    rootIdValid := d.tab.modidValid, rootSeq := d.kt.rootSeq, hops := 0, errPs := 0, state := 0 }

/-- The root in force. -/
def presentRoot (serial : BitVec 64) (d : Dev) : Offer := if isRoot d.kt then selfOffer serial d else d.kt.root

/-- The choice of R346 and the states of R349: a root, a follower, or a module without an eligible port. -/
def reselect (serial : BitVec 64) (d : Dev) : Dev :=
  let old := presentRoot serial d
  match bestPort d with
  | some p =>
    if ownRoot serial d then
      takeRoot (if d.kt.extref && d.kt.refLocked then .extref else .master) none (selfOffer serial d) old d
    else
      let o := childOffer (portAt d p).offer
      if d.kt.parent = some p && !isRoot d.kt && d.kt.state != .holdover && d.kt.state != .free then
        takeRoot d.kt.state (some p) o old d
      else
        let same := old.serial == o.serial && old.prio == o.prio
        let near := decide ((portAt d p).theta.natAbs < 16384)
        let st := if d.kt.state == .locked && (same || near) then KtState.locked else KtState.acquire
        let d := if st = .acquire then { d with kt := { d.kt with good := 0 } } else d
        takeRoot st (some p) o old d
  | none =>
    match d.kt.state with
    | .locked =>
      takeRoot .holdover none old old { d with kt := { d.kt with holdSince := nowNs d, holdBase := ktErrPs d } }
    | .acquire => if mayRoot d then takeRoot .master none (selfOffer serial d) old d else takeRoot .free none old old d
    | .holdover | .free => d
    | _ => if mayRoot d then d else takeRoot .free none old old d

/-- A new KT.PRIO: the choice is made at once, and a module that no root reaches is root again if it may be (R344). Log
entry 25. -/
def elect (serial : BitVec 64) (d : Dev) : Dev :=
  reselect serial (if d.kt.state = .free then { d with kt := { d.kt with state := .acquire } } else d)

/-! ### TIME_MARK (R343, R349) -/

/-- A mark's offer. -/
def parseOffer (b : List Byte) : Offer :=
  let w := leAt b 8 8
  { prio := bitsOf w 55 48, serial := BitVec.ofNat 64 (leAt b 0x28 8), rootId := bitsOf w 47 32,
    rootIdValid := bitOf (leAt b 0x20 8) 32, rootSeq := leAt b 0x20 4, hops := bitsOf w 60 56,
    errPs := leAt b 0x1C 4, state := bitsOf w 63 61 }

/-- A 80-bit stamp from its two fields. -/
def stampOf (b : List Byte) (off : Nat) : Nat := leAt b off 8 * 65536 + leAt b (off + 8) 2

/-- Whether the count may step (R339): before the first lock, and later only with no context resident and no
launch pending. -/
def stepAllowed (d : Dev) : Bool :=
  !d.kt.firstLock || d.ctxs.all (fun p => p.2.state != .resident && p.2.launches == [])

/-- Steps the count by `delta` fraction units (R339): the slew under way ends, what the ports measure intervals from moves
with the count, and reserved bays run from the next boundary. -/
def stepTime (delta : Int) (d : Dev) : Dev :=
  let now := ((d.kt.now : Int) + delta).toNat % 2 ^ 80
  let move := fun (x : Nat) => ((x : Int) + ((now / 65536 : Nat) - nowNs d)).toNat
  { d with
    kt := { d.kt with now := now, slew := 0, slewAt := 1000, bayFrom := (now / 65536 / 128 + 1) * 128 }
    ports := d.ports.map (fun x => (x.1, { x.2 with
      lastMark := move x.2.lastMark, rootSeqAt := move x.2.rootSeqAt, identAt := move x.2.identAt
      ueTimes := x.2.ueTimes.map move })) }

/-- The servo on a mark of the parent (R343). -/
def servo (theta : Int) (d : Dev) : Dev :=
  if 65536000 < theta.natAbs && stepAllowed d then
    let d := stepTime (-theta) d
    { d with kt := { d.kt with rate := 0, good := 0 } }
  else
    let rate := d.kt.rate - theta.tdiv 64
    { d with kt := { d.kt with
      rate := rate
      slew := slewClamp ((-theta).tdiv 4 + rate)
      slewAt := 0
      good := if theta.natAbs < 16384 then (d.kt.good + 1) % 2 ^ 32 else 0 } }

/-- The lock states after a mark of the parent (R349). -/
def lockState (port : Nat) (theta : Int) (d : Dev) : Dev :=
  match d.kt.state with
  | .acquire =>
    if 64 ≤ d.kt.good then holdBays { d with kt := { d.kt with state := .locked, firstLock := true } } else d
  | .locked =>
    if 131072 < theta.natAbs then
      let d := { d with kt := { d.kt with state := .acquire, good := 0 } }
      holdBays (raiseFields timeUnlock unitKeystone none
        [(port, 8), (toTwos 64 theta, 64), (ktStateNo .acquire, 3)] d)
    else d
  | _ => d

/-- What a mark records at its port: stamps, offer, and with an echo that matches the offset and the delay. -/
def markPort (b : List Byte) (rx : Nat) (now : Nat) (p : Port) : Port :=
  let o := parseOffer b
  let p1 := { p with
    rxSeq := leAt b 0xA 2, rxTime := rx, lastMark := now, seen := true, offer := o
    rootSeqAt := if !p.seen || o.rootSeq != p.offer.rootSeq then now else p.rootSeqAt }
  match p.txStamps.find? (fun x => x.1 == leAt b 0x1A 2) with
  | none => p1
  | some t3 =>
    let ab : Int := (rx : Int) - stampOf b 0
    let ba : Int := (stampOf b 0x10 : Int) - t3.2
    { p1 with
      marks := p.marks + 1
      theta := (ab - ba - p.asym).tdiv 2
      dly := p.dly + ((ab + ba).tdiv 2 - p.dly).tdiv 64 }

/-- A mark arrives. -/
def markArrive (serial : BitVec 64) (port : Nat) (bs : List Byte) (d : Dev) : Dev :=
  let p := portAt d port
  if !linkUp p || bs.length ≠ 64 then d
  else if !ctrlCrcOk bs then dropCtrl (some port) dropCrc d
  else
    let before := p.marks
    let d := modPort port (markPort (parseCtrl bs).body (stamp d) (nowNs d)) d
    let measured := decide ((portAt d port).marks ≠ before)
    let d := reselect serial d
    if d.kt.parent = some port && measured then
      let theta := (portAt d port).theta
      lockState port theta (servo theta d)
    else d

def execTimeMark (port : Nat) (flit : List Byte) (s : State) : Host.Outcome State Fault Refusal :=
  onFuse (portKnown port) (fun f d => markArrive f.serial port flit d) s

/-- PORT_INELIGIBLE (R347): the parent is chosen again. -/
def execPortIneligible (port : Nat) (s : State) : Host.Outcome State Fault Refusal :=
  onFuse (portKnown port) (fun f d =>
    if d.kt.parent = some port && !eligible d port then reselect f.serial d else d) s

/-- HOLDOVER_LIMIT (R352, R353). -/
def execHoldoverLimit (s : State) : Host.Outcome State Fault Refusal :=
  onDev true (fun d => if d.kt.state = .holdover then holdBays d else d) s

/-- HOLD_EXPIRY (R349). -/
def execHoldExpiry (s : State) : Host.Outcome State Fault Refusal :=
  onDev true (fun d =>
    if d.kt.state = .holdover && decide (d.kt.holdSince + d.kt.holdMs * 1000000 ≤ nowNs d) && (bestPort d).isNone then
      holdBays { d with kt := { d.kt with state := .free } }
    else d) s

/-! ### Apply times (R359, R367, R402) -/

/-- A change's extra fields: apply time, entries staged and declared. -/
def changeFields (c : Change) : List (Nat × Nat) := [(c.t, 64), (c.staged.length, 32), (c.count, 32)]

/-- TT_APPLY (R359). -/
def execTtApply (s : State) : Host.Outcome State Fault Refusal :=
  onDev true (fun d =>
    match d.tab.ttChange with
    | none => d
    | some c =>
      if nowNs d < c.t then d
      else
        let d := { d with tab := { d.tab with ttChange := none } }
        if c.count ≤ c.staged.length then
          let live := c.staged.foldl (fun m e => mapPut 0 e.1 (mapGet 0 d.tab.staging e.1) m) d.tab.live
          { d with tab := { d.tab with live := live } }
        else raiseFields ttIncomplete unitTable none (changeFields c) d) s

/-- RT_APPLY (R402): RT.EPOCH flips to the staged leaf. -/
def execRtApply (s : State) : Host.Outcome State Fault Refusal :=
  onDev true (fun d =>
    match d.tab.rtChange with
    | none => d
    | some c =>
      if nowNs d < c.t then d
      else
        let d := { d with tab := { d.tab with rtChange := none } }
        if c.count ≤ c.staged.length then
          { d with tab := { d.tab with
              okA := d.tab.okA || d.tab.epoch
              okB := d.tab.okB || !d.tab.epoch
              epoch := !d.tab.epoch
              flipAt := some (nowNs d) } }
        else raiseFields rtIncomplete unitTable none (changeFields c) d) s

/-- The clusters. -/
def allClusters : List Nat := List.range 20

/-- Whether every cluster stands at 0.70 GHz. -/
def atFloor (m : SMap Nat) : Bool := allClusters.all (fun c => mapGet 70 m c == 28)

/-- Whether R26 holds every cluster at 0.70 GHz: the cap is still exceeded there. -/
def capHolds (p : Power) : Bool := decide (p.cap < p.watts) && atFloor p.clocks

/-- A clock plan's clocks: 0.70 GHz and 25 MHz a step, 63 for unchanged (R438). -/
def planClocks (targets : List Nat) (clocks : SMap Nat) : SMap Nat :=
  (targets.zip (List.range 20)).foldl (fun m x => if x.1 = 63 then m else mapPut 70 x.2 (28 + x.1) m) clocks

/-- CLOCK_PLAN_APPLY (R367): a plan that finds the module out of COORD takes no effect; clusters that R26 holds at 0.70 GHz
stay there. Log entry 43. -/
def execClockPlanApply (s : State) : Host.Outcome State Fault Refusal :=
  onDev true (fun d =>
    match d.pwr.plan with
    | none => d
    | some p =>
      if nowNs d < p.t then d
      else
        let d := { d with pwr := { d.pwr with plan := none } }
        let comp := fun e => pushComp 4096 { seqNo := p.seqNo, kind := 0x23, error := e }
        if d.pwr.coord then comp 0 { d with pwr := { d.pwr with
            clocks := if capHolds d.pwr then d.pwr.clocks else planClocks p.targets d.pwr.clocks } }
        else
          let named := bitMap (((p.targets.zip (List.range 20)).filter (fun x => x.1 != 63)).map (·.2))
          comp pwrIncomplete (raiseFields pwrIncomplete unitKeystone none [(p.t, 64), (named, 20)] d)) s

end Sys2Proof.Machine
end

