-- ==== Sys2Proof/Machine/Links.lean ====
section
/-!
DEFINITION. Links: training and its ends (15 R372 to R375, 18 R475), the state section of module flash
(18 R460), IDENT (15 R393), link control (16 R408, R409).
-/

namespace Sys2Proof.Machine

/-! ### The state section (R457, R460) -/

/-- Writes the working state section to the copy that does not hold the latest sequence. -/
def saveSection (f : StateSec → StateSec) (d : Dev) : Dev :=
  let sec := { f d.run.sec with valid := true, seqNo := (d.run.sec.seqNo + 1) % 2 ^ 32 }
  let toA := !d.flash.copyA.valid || (d.flash.copyB.valid && decide (d.flash.copyA.seqNo < d.flash.copyB.seqNo))
  { d with
    run := { d.run with sec := sec }
    flash := if toA then { d.flash with copyA := sec } else { d.flash with copyB := sec } }

/-- Saves the coefficient record of a port under its peer (R373). -/
def saveCoef (port : Nat) (serial : BitVec 64) (peerPort : Nat) (d : Dev) : Dev :=
  saveSection (fun s =>
    let old := s.coefs.find? (fun c => c.port == port)
    let n := match old with | some c => c.seqNo + 1 | none => 1
    { s with coefs := s.coefs.filter (fun c => c.port != port) ++
        [{ port := port, peerSerial := serial, peerPort := peerPort, seqNo := n % 2 ^ 32 }] }) d

/-! ### Link states (R374, R375) -/

/-- PORT.STATE codes (R541). -/
def linkNo : LinkState → Nat
  | .dark => 0 | .training => 1 | .localSt => 2 | .routed => 3 | .retrain => 4

/-- Causes that a FAB_LINK record carries: 1 to 5 in the order of R374, then a peer lost, a credit out of range,
half width, a change of the peer, the fabric manager's routed bit, and a reset. -/
def causeFrames : Nat := 1
def causePeer : Nat := 4
def causeManager : Nat := 5
def causeDown : Nat := 6
def causeCredit : Nat := 7
def causeHalf : Nat := 8
def causeIdent : Nat := 9
def causeRouted : Nat := 10
def causeReset : Nat := 11

/-- FAB_LINK (R397): port, old and new state, width, cause. -/
def linkRecord (port : Nat) (old new : LinkState) (cause : Nat) (d : Dev) : Dev :=
  raiseFields fabLink (unitPort port) none [(port, 8), (linkNo old, 3), (linkNo new, 3),
    (if (portAt d port).half then 4 else 8, 4), (cause, 8)] d

/-- A port leaves service: queued packets drop with reason LINK, marks stop, and FAB_LINK is raised. -/
def leaveLink (port : Nat) (new : LinkState) (cause : Nat) (d : Dev) : Dev :=
  let old := (portAt d port).state
  let d := dropEgress port dropLink (fun _ => true) d
  let d := modPort port (fun p => { p with
    state := new, marks := 0, seen := false, txStamps := [], rxPart := [], ueTimes := [] }) d
  if old = new then d else linkRecord port old new cause d

/-- A port leaves ROUTED and stays in LOCAL. -/
def leaveRouted (port cause : Nat) (d : Dev) : Dev :=
  if (portAt d port).state = .routed then
    let d := dropEgress port dropLink (fun _ => true) d
    linkRecord port .routed .localSt cause (modPort port (fun p => { p with state := .localSt }) d)
  else d

/-- Whether every lane 0-7, or one half of them, passes ALIGN (R374). -/
def lanesWidth (lanesOk : Nat) : Option Bool :=
  if lanesOk % 256 = 255 then some false
  else if lanesOk % 16 = 15 ∨ lanesOk / 16 % 16 = 15 then some true
  else none

/-- The packets that wait here and came by a port hold no buffer that its fresh counts still count. -/
def forgetBuffers (port : Nat) (d : Dev) : Dev :=
  let f := fun (k : Pkt) => if k.ingress = some port then { k with inVc := 6 } else k
  { d with
    fab := { d.fab with loc := d.fab.loc.map f }
    ports := d.ports.map (fun x => (x.1, { x.2 with egress := x.2.egress.map f })) }

/-- Entry into LOCAL (R373, R393): fresh marks and credit counts, an IDENT due, and FAB_LINK at half width. -/
def enterLocal (port : Nat) (half : Bool) (d : Dev) : Dev :=
  let old := (portAt d port).state
  let d := forgetBuffers port d
  let d := modPort port (fun p => { p with
    state := .localSt, half := half, marks := 0, seen := false, txStamps := [], identOut := []
    sent := [0, 0, 0, 0, 0, 0], freed := [0, 0, 0, 0, 0, 0], ownFreed := [0, 0, 0, 0, 0, 0]
    told := [0, 0, 0, 0, 0, 0], rxPart := [] }) d
  if half then linkRecord port old .localSt causeHalf d else d

/-- Whether the fabric ports may train (R451, R462, R473): from die release on, in a module that runs. -/
def fabricOn (d : Dev) : Bool :=
  !d.pwr.mrstLow && (d.pwr.phase == .released || d.pwr.phase == .trained || d.pwr.phase == .zeroed || d.pwr.phase == .ready)

/-- Trains a port to LOCAL, or leaves it training (R372, R373). -/
def trainPort (port lanesOk : Nat) (peerSerial : BitVec 64) (peerPort : Nat) (d : Dev) : Dev :=
  let p := portAt d port
  if !fabricOn d || p.kept || linkUp p then d
  else
    match lanesWidth lanesOk with
    | none => if p.state = .dark then modPort port (fun p => { p with state := .training }) d else d
    | some half =>
      let same := leAt p.peer 0 8 == peerSerial.toNat && bitsOf (leAt p.peer 8 8) 21 17 == peerPort
      let d := enterLocal port half (saveCoef port peerSerial peerPort d)
      if same then d else modPort port (fun p => { p with peer := [] }) d

/-- LINK_DETECT (R372): at least four lanes have left electrical idle. -/
def execLinkDetect (port lanesOk : Nat) (peerSerial : BitVec 64) (peerPort : Nat) (s : State) :
    Host.Outcome State Fault Refusal :=
  onDev (portKnown port) (fun d =>
    if popCount 8 lanesOk < 4 then d else trainPort port lanesOk peerSerial peerPort d) s

/-- A port retrains (R374). -/
def retrainPort (port cause : Nat) (d : Dev) : Dev :=
  if linkUp (portAt d port) then leaveLink port .retrain cause d else d

/-- LINK_RETRAIN (R374): a port in service starts to retrain; one that retrains comes up again from its saved
coefficients. -/
def execLinkRetrain (port cause lanesOk : Nat) (s : State) : Host.Outcome State Fault Refusal :=
  onDev (portKnown port) (fun d =>
    let p := portAt d port
    if p.state = .retrain then
      (match lanesWidth lanesOk with
       | some half =>
         let c := (d.run.sec.coefs.find? (fun c => c.port == port)).getD { port := port }
         if fabricOn d && !p.kept then enterLocal port half (saveCoef port c.peerSerial c.peerPort d) else d
       | none => d)
    else retrainPort port cause d) s

/-- LINK_DOWN (R475). -/
def execLinkDown (port : Nat) (s : State) : Host.Outcome State Fault Refusal :=
  onDev (portKnown port) (retrainPort port causeDown) s

/-! ### IDENT (R393) -/

/-- Cores of the harvest map. -/
def harvestCores (f : Fuse) : Nat := popCount 160 f.harvest.toNat

/-- ID.HARVEST: the grade with 144 cores. -/
def idHarvest (f : Fuse) : Bool := harvestCores f == 144

/-- The module's IDENT body at a port. -/
def identBody (f : Fuse) (d : Dev) (port : Nat) : List Byte :=
  let p := portAt d port
  let coef := ((d.run.sec.coefs.find? (fun c => c.port == port)).map (·.seqNo)).getD 0
  padTo 48 (leBytes 8 f.serial.toNat
    ++ leBytes 8 (packFields [(d.tab.modid, 16), (bit01 d.tab.modidValid, 1), (port, 5), (bit01 p.half, 1),
        (bit01 p.routedBit, 1), (0x07, 8), (0xB0, 8), (bit01 (idHarvest f), 1)])
    ++ leBytes 8 (packFields [(d.tab.hall, 32), (coef, 32)]))

/-- Whether a port may send an IDENT now: a management packet of one flit, in an open bay, with its credit (R357, R381, R408,
R411). -/
def identRoom (d : Dev) (port : Nat) : Bool :=
  let p := portAt d port
  bitsOf (bayEntry d port) 63 62 == 0 && fitsBay d p.half 1 && decide (1 ≤ credits p 5)

/-- IDENT_SEND: on entry into LOCAL, every millisecond, and when a field changes. -/
def identDue (f : Fuse) (port : Nat) (d : Dev) : Dev :=
  let p := portAt d port
  let b := identBody f d port
  if linkUp p && identRoom d port && (p.identOut != b || decide (p.identAt + 1000000 ≤ nowNs d)) then
    let bs := packCtrl { vc := 5, typ := 2, loc := true, sunasg := !d.tab.modidValid, smod := d.tab.modid, body := b }
    modPort port (fun p => { p with
      identOut := b, identAt := nowNs d, out := bs, sent := p.sent.set 5 ((p.sent.getD 5 0 + 1) % 65536) }) d
  else d

def execIdentSend (port : Nat) (s : State) : Host.Outcome State Fault Refusal :=
  onFuse (portKnown port) (fun f d => identDue f port d) s

/-- FAB_IDENT (R397). -/
def identRecord (port : Nat) (b : List Byte) (d : Dev) : Dev :=
  raiseFields fabIdent (unitPort port) none [(port, 8), (leAt b 0 8, 64), (bitsOf (leAt b 8 8) 21 17, 5),
    (leAt b 0x10 4, 32), (leAt b 8 2, 16)] d

/-- Whether a peer's report keeps its port in LOCAL: another hall, another protocol, or this module's identifier
under another serial. -/
def identClash (f : Fuse) (d : Dev) (b : List Byte) : Bool :=
  let w := leAt b 8 8
  let hall := leAt b 0x10 4
  (hall != 0 && d.tab.hall != 0 && hall != d.tab.hall) || bitsOf w 31 24 != 0x07
    || (d.tab.modidValid && bitOf w 16 && bitsOf w 15 0 == d.tab.modid && leAt b 0 8 != f.serial.toNat)

/-- A port in LOCAL enters ROUTED when both ends report the routed bit (R375). -/
def tryRouted (f : Fuse) (port : Nat) (d : Dev) : Dev :=
  let p := portAt d port
  if p.state = .localSt && p.routedBit && p.peer != [] && bitOf (leAt p.peer 8 8) 23 && !identClash f d p.peer then
    modPort port (fun p => { p with state := .routed }) d
  else d

/-- An IDENT arrives; its management buffer is free at once (R405, R409). -/
def identArrive (f : Fuse) (port : Nat) (bs : List Byte) (d : Dev) : Dev :=
  let p := portAt d port
  let free := freeBuffer (some port) 5 1
  if !linkUp p || bs.length ≠ 64 then d
  else if !ctrlCrcOk bs then free (dropCtrl (some port) dropCrc d)
  else
    let b := (parseCtrl bs).body
    let who := fun (x : List Byte) => (leAt x 0 8, bitsOf (leAt x 8 8) 21 17)
    let d := modPort port (fun p => { p with peer := b }) (free d)
    if p.peer != [] && who p.peer != who b then
      let d := leaveRouted port causeIdent d
      identRecord port b (modPort port (fun p => { p with routedBit := false }) d)
    else if identClash f d b then identRecord port b (leaveRouted port causeIdent d)
    else tryRouted f port d

def execIdent (port : Nat) (flit : List Byte) (s : State) : Host.Outcome State Fault Refusal :=
  onFuse (portKnown port) (fun f d => identArrive f port flit d) s

/-! ### Link control (R408, R409) -/

/-- A link-control flit with its CRC. -/
def packLc (bs : List Byte) : List Byte :=
  let b := padTo 0x38 bs
  b ++ leBytes 2 (crc16 b) ++ leBytes 6 0

/-- LC.CRC. -/
def lcOk (bs : List Byte) : Bool := bs.length == 64 && leAt bs 0x38 2 == crc16 (bs.take 0x38)

/-- CREDIT_SEND: counts that have advanced since the last credit flit. -/
def sendCredit (port : Nat) (d : Dev) : Dev :=
  let p := portAt d port
  if !linkUp p || p.ownFreed == p.told then d
  else
    let n := (p.lcSeq + 1) % 256
    let c := fun i => (p.ownFreed.getD i 0, 16)
    let bs := packLc (leBytes 8 (packFields [(1, 8), (n, 8)]) ++ leBytes 8 (packFields [c 0, c 1, c 2, c 3])
      ++ leBytes 8 (packFields [c 4, c 5]))
    modPort port (fun p => { p with lcSeq := n, told := p.ownFreed, out := bs }) d

def execCreditSend (port : Nat) (s : State) : Host.Outcome State Fault Refusal :=
  onDev (portKnown port) (sendCredit port) s

/-- A credit flit: the counts are taken, or one above its buffer makes the port retrain with FAB_CREDIT. -/
def creditArrive (port : Nat) (bs : List Byte) (d : Dev) : Dev :=
  let p := portAt d port
  if !linkUp p || !lcOk bs || leAt bs 0 1 ≠ 1 then d
  else
    let freed := (List.range 6).map (fun i => leAt bs (8 + 2 * i) 2)
    match (List.range 6).find? (fun v => decide (vcBuffer v < (p.sent.getD v 0 + 65536 - freed.getD v 0) % 65536)) with
    | some v =>
      let d := raiseFields fabCredit (unitPort port) none
        [(port, 8), (v, 3), (freed.getD v 0, 16), (p.sent.getD v 0, 16)] d
      retrainPort port causeCredit d
    | none => modPort port (fun p => { p with freed := freed }) d

def execCredit (port : Nat) (flit : List Byte) (s : State) : Host.Outcome State Fault Refusal :=
  onDev (portKnown port) (creditArrive port flit) s

/-- A retrain request of the peer (R374). -/
def retrainArrive (port : Nat) (bs : List Byte) (d : Dev) : Dev :=
  if !lcOk bs || leAt bs 0 1 ≠ 2 then d else retrainPort port causePeer d

def execRetrain (port : Nat) (flit : List Byte) (s : State) : Host.Outcome State Fault Refusal :=
  onDev (portKnown port) (retrainArrive port flit) s

/-- Lane status of the peer (R409). -/
def lanesArrive (port : Nat) (bs : List Byte) (d : Dev) : Dev :=
  if !linkUp (portAt d port) || !lcOk bs || leAt bs 0 1 ≠ 3 then d
  else modPort port (fun p => { p with laneOk := leAt bs 8 2 }) d

def execLanes (port : Nat) (flit : List Byte) (s : State) : Host.Outcome State Fault Refusal :=
  onDev (portKnown port) (lanesArrive port flit) s

end Sys2Proof.Machine
end

