-- ==== Sys2Proof/Machine/Mgmt.lean ====
section
/-!
DEFINITION. The management window (21 R541, R542), management packets (15 R394, R395), the fabric-manager mailbox
(21 R540) and the forwarding of control packets (15 R381, R394, 16 R400).
-/

namespace Sys2Proof.Machine

/-! ### Reads of the window -/

/-- Replies' MG.STATUS. -/
def mgDone : Nat := 0
def mgBadAddr : Nat := 1
def mgRefused : Nat := 2
def mgBusy : Nat := 3

/-- Whether `a` lies in `n` bytes from `lo`. -/
def within (a lo n : Nat) : Bool := decide (lo ≤ a) && decide (a < lo + n)

/-- Port and offset of an address in a table of one block per port. -/
def portBlock (a lo size : Nat) : Nat × Nat := ((a - lo) / size, (a - lo) % size)

/-- Eight bytes of the window; none where the address names nothing. -/
def winRead (f : Fuse) (d : Dev) (a : Nat) : Option Nat :=
  let t := d.tab
  if a % 8 ≠ 0 then none
  else if a < 48 then some (leAt (identBody f d 0) a 8)
  else if within a 0x1000 (18 * 0x40) then
    let x := portBlock a 0x1000 0x40
    if x.2 < 48 then some (leAt (padTo 48 (portAt d x.1).peer) x.2 8) else none
  else if within a 0x2000 (18 * 8) then
    let p := portAt d ((a - 0x2000) / 8)
    some (packFields [(bit01 p.routedBit, 1), (0, 3), (linkNo p.state, 3), (bit01 p.half, 1)])
  else if within a 0x2100 (18 * 8) then some (toTwos 32 (portAt d ((a - 0x2100) / 8)).asym)
  else if a = 0x3000 then some (packFields [(d.kt.prio, 8), (bit01 d.kt.extref, 1), (0, 7), (d.kt.holdMs, 10)])
  else if a = 0x3008 then
    some (packFields [(t.inj, 5), (0, 3), (bit01 t.epoch, 1), (bit01 t.okA, 1), (bit01 t.okB, 1)])
  else if within a 0x4000 0x20 then some 0
  else if a = 0x4020 then
    let n := fun (c : Option Change) => (c.map (fun c => c.staged.length)).getD 0
    some (packFields [(n t.rtChange, 21), (0, 11), (n t.ttChange, 21)])
  else if within a 0x1000000 (18 * 0x80000) then
    let x := portBlock a 0x1000000 0x80000
    let k := (x.1 * 2 + x.2 / 0x40000) * 65536 + x.2 % 0x40000 / 4
    some ((mapGet 0 t.leaves k).toNat + 2 ^ 32 * (mapGet 0 t.leaves (k + 1)).toNat)
  else if within a 0x2000000 (18 * 0x10000) then
    let x := portBlock a 0x2000000 0x10000
    let k := x.1 * 4096 + x.2 % 0x8000 / 8
    some (if x.2 < 0x8000 then mapGet 0 t.live k else mapGet 0 t.staging k).toNat
  else none

/-! ### Writes of the window (R359, R402, R403, R542) -/

/-- The extra fields of TT_TIME and TT_BUSY: apply time and requester. -/
def declRefused (cls t requester : Nat) (d : Dev) : Dev :=
  raiseFields cls unitTable none [(t, 64), (requester, 16)] d

/-- The terms of an apply time: on the turn grid, not passed, at most 60 s ahead. -/
def applyTimeOk (d : Dev) (t : Nat) : Bool :=
  t % 2 ^ 19 == 0 && decide (nowNs d ≤ t) && decide (t ≤ nowNs d + 60000000000)

/-- A declaration of a change with at most `most` entries. -/
def declare (isOpen : Bool) (most count t requester : Nat) (put : Option Change → Dev → Dev) (d : Dev) : Nat × Dev :=
  if count = 0 then (mgDone, put none d)
  else if isOpen then (mgBusy, declRefused ttBusy t requester d)
  else if most < count || !applyTimeOk d t then (mgRefused, declRefused ttTime t requester d)
  else (mgDone, put (some { count := count, t := t }) d)

/-- Stages routing entries into the leaf that RT.EPOCH does not select; their reserved bits read zero (R12, R399). -/
def stageRoutes (key n data requester : Nat) (d : Dev) : Nat × Dev :=
  let t := d.tab
  let leafB := key / 65536 % 2 == 1
  match t.rtChange with
  | none => (mgRefused, d)
  | some c =>
    if leafB == t.epoch then (mgRefused, d)
    else if (t.flipAt.map (fun x => decide (nowNs d < x + 100000))).getD false then
      (mgBusy, raiseFields rtBusy unitTable none
        [(bit01 leafB, 1), (t.flipAt.getD 0, 64), (requester, 16)] d)
    else
      let ks := (List.range n).map (fun i => (key + i, BitVec.ofNat 32 (data / 2 ^ (32 * i)) &&& 0xFFFFC000#32))
      let t := if c.staged = [] then (if leafB then { t with okB := false } else { t with okA := false }) else t
      let t := { t with
        leaves := ks.foldl (fun m x => mapPut 0 x.1 x.2 m) t.leaves
        rtChange := some { c with staged := ks.foldl (fun m x => mapPut false x.1 true m) c.staged } }
      (mgDone, { d with tab := t })

/-- Stages timetable entries; their reserved bits read zero (R12, R356). -/
def stageBays (key n data : Nat) (d : Dev) : Nat × Dev :=
  match d.tab.ttChange with
  | none => (mgRefused, d)
  | some c =>
    let ks := (List.range n).map (fun i => (key + i, BitVec.ofNat 64 (data / 2 ^ (64 * i)) &&& 0xCFFFFFFFFFFFFFFF#64))
    (mgDone, { d with tab := { d.tab with
      staging := ks.foldl (fun m x => mapPut 0 x.1 x.2 m) d.tab.staging
      ttChange := some { c with staged := ks.foldl (fun m x => mapPut false x.1 true m) c.staged } } })

/-- A write of PORT.ROUTED and PORT.RETRAIN. -/
def writePort (f : Fuse) (port data : Nat) (d : Dev) : Dev :=
  let on := bitOf data 0
  let d := modPort port (fun p => { p with routedBit := on }) d
  let d := if on then tryRouted f port d else leaveRouted port causeRouted d
  if bitOf data 1 then retrainPort port causeManager d else d

/-- A write of KT.PRIO, KT.EXTREF and KT.HOLD_MS: a root without EXTREF leaves its reference, and the root is elected anew. -/
def writeKt (serial : BitVec 64) (data : Nat) (d : Dev) : Nat × Dev :=
  let ms := bitsOf data 25 16
  if ms < 1 ∨ 1000 < ms then (mgRefused, d)
  else
    let k := { d.kt with prio := data % 256, extref := bitOf data 8, holdMs := ms }
    let k := if bitOf data 8 then k
      else { dropRef k with state := if k.state = .extref then .master else k.state }
    (mgDone, elect serial { d with kt := k })

/-- A write of 8 or 16 bytes to the window: its status and effect. -/
def winWrite (f : Fuse) (a : Nat) (wide : Bool) (data requester : Nat) (d : Dev) : Nat × Dev :=
  if a = 0x4000 ∨ a = 0x4010 then
    if !wide then (mgRefused, d)
    else if a = 0x4000 then
      declare d.tab.rtChange.isSome 1179648 (data % 2 ^ 64) (data / 2 ^ 64 % 2 ^ 64) requester
        (fun c d => { d with tab := { d.tab with rtChange := c } }) d
    else
      declare d.tab.ttChange.isSome 73728 (data % 2 ^ 64) (data / 2 ^ 64 % 2 ^ 64) requester
        (fun c d => { d with tab := { d.tab with ttChange := c } }) d
  else if (winRead f d a).isNone then (mgBadAddr, d)
  else if within a 0x1000000 (18 * 0x80000) then
    let x := portBlock a 0x1000000 0x80000
    stageRoutes ((x.1 * 2 + x.2 / 0x40000) * 65536 + x.2 % 0x40000 / 4) (if wide then 4 else 2) data requester d
  else if within a 0x2000000 (18 * 0x10000) then
    let x := portBlock a 0x2000000 0x10000
    if x.2 < 0x8000 then (mgRefused, d)
    else stageBays (x.1 * 4096 + (x.2 - 0x8000) / 8) (if wide then 2 else 1) data d
  else if wide then (mgRefused, d)
  else if within a 0x2000 (18 * 8) then (mgDone, writePort f ((a - 0x2000) / 8) data d)
  else if within a 0x2100 (18 * 8) then
    (mgDone, modPort ((a - 0x2100) / 8) (fun p => { p with asym := ofTwos 32 data }) d)
  else if a = 0x3000 then writeKt f.serial data d
  else if a = 0x3008 then
    if 17 < data % 32 then (mgRefused, d)
    else (mgDone, { d with tab := { d.tab with inj := data % 32 } })
  else (mgRefused, d)

/-! ### Management packets (R394) -/

/-- A management body. -/
structure MgBody where
  seqNo : BitVec 32 := 0
  op : Nat := 0
  wide : Bool := false
  status : Nat := 0
  addr : Nat := 0
  data : Nat := 0
  route : Nat := 0
  routeLen : Nat := 0
  back : Nat := 0
  backLen : Nat := 0
  deriving DecidableEq, Repr

def parseMg (b : List Byte) : MgBody :=
  let w := leAt b 0 8
  let r := leAt b 0x20 8
  let k := leAt b 0x28 8
  { seqNo := BitVec.ofNat 32 w, op := bitsOf w 35 32, wide := bitOf w 36, status := bitsOf w 47 40,
    addr := leAt b 8 8, data := leAt b 0x10 16, route := bitsOf r 59 0, routeLen := bitsOf r 63 60,
    back := bitsOf k 59 0, backLen := bitsOf k 63 60 }

def packMg (m : MgBody) : List Byte :=
  leBytes 8 (packFields [(m.seqNo.toNat, 32), (m.op, 4), (bit01 m.wide, 1), (0, 3), (m.status, 8)])
  ++ leBytes 8 m.addr ++ leBytes 16 m.data
  ++ leBytes 8 (packFields [(m.route, 60), (m.routeLen, 4)])
  ++ leBytes 8 (packFields [(m.back, 60), (m.backLen, 4)])

/-- The egress of hop `h` of a source route. -/
def hopPort (m : MgBody) (h : Nat) : Nat := bitsOf m.route (5 * h + 4) (5 * h)

/-- Whether a management packet has reached its module. -/
def mgHere (d : Dev) (c : CtrlPkt) : Bool :=
  if c.srcrt then decide ((parseMg c.body).routeLen ≤ c.hops) else d.tab.modidValid && c.dmod == d.tab.modid

/-- MGMT_ASSIGN's effect (R395). -/
def assignId (data : Nat) (d : Dev) : Dev :=
  { d with tab := { d.tab with modid := data % 2 ^ 16, modidValid := true, hall := bitsOf data 63 32 } }

/-- What a management request does: the reply's body and the state. -/
def mgServe (f : Fuse) (c : CtrlPkt) (d : Dev) : MgBody × Dev :=
  let m := parseMg c.body
  let rep : MgBody :=
    { m with op := 2, route := m.back, routeLen := m.backLen, back := 0, backLen := 0, status := 0 }
  if c.typ = 0x13 then (rep, assignId m.data d)
  else if c.typ = 0x11 then
    (match winRead f d m.addr with
     | none => ({ rep with status := mgBadAddr }, d)
     | some v =>
       let hi := if m.wide then (winRead f d (m.addr + 8)).getD 0 else 0
       ({ rep with data := v + 2 ^ 64 * hi }, d))
  else
    let r := winWrite f m.addr m.wide m.data c.smod d
    ({ rep with status := r.1 }, r.2)

/-- A reply reaches the fabric-manager mailbox, matched by MG.SEQ; the last ends the command (R540). -/
def fmReply (bs : List Byte) (d : Dev) : Dev :=
  let m := parseMg (parseCtrl bs).body
  match d.pier.fmBusy.find? (fun r => r.2.1 == m.seqNo) with
  | none => d
  | some r =>
    let d := hostPut (d.pier.fmBuf + 0x8000 + 64 * r.1) bs d
    let left := d.pier.fmBusy.filter (fun x => x.1 != r.1)
    let d := { d with pier := { d.pier with fmBusy := left } }
    if left = [] then attnSet 11 { d with pier := { d.pier with fmDone := true } } else d

/-- The reply packet of a request. -/
def mgReplyPkt (c : CtrlPkt) (m : MgBody) (d : Dev) : CtrlPkt :=
  { typ := 0x12, epoch := d.tab.epoch, srcrt := c.srcrt, sunasg := !d.tab.modidValid, dmod := c.smod,
    smod := d.tab.modid, deadline := (nowNs d + 100000) % 2 ^ 32, body := packMg m }

/-- Sends a control packet of this module on its way: along its source route, or by the tables. -/
def sendCtrl (c : CtrlPkt) (d : Dev) : Dev :=
  let out := if c.srcrt then some (hopPort (parseMg c.body) 0) else none
  let c := if c.srcrt then { c with hops := 1 } else c
  match inject { bytes := packCtrl c, ctrl := true, vc := 5, inVc := 5 } c.dmod out d with
  | some d => d
  | none => dropCtrl none dropNoroute d

/-- A management packet for this module: a request is served and its one reply sent, a reply goes to the mailbox. -/
def mgDeliver (f : Fuse) (c : CtrlPkt) (bs : List Byte) (d : Dev) : Dev :=
  if c.typ = 0x12 then fmReply bs d
  else
    let r := mgServe f c d
    let p := mgReplyPkt c r.1 r.2
    if (p.srcrt && r.1.routeLen == 0) || (!p.srcrt && r.2.tab.modidValid && p.dmod == r.2.tab.modid) then
      fmReply (packCtrl p) r.2
    else sendCtrl p r.2

/-- A management packet arrives at a port, or from the mailbox of this module. -/
def mgArrive (f : Fuse) (port : Option Nat) (types : List Nat) (want : MgBody → Bool) (bs : List Byte) (d : Dev) : Dev :=
  let c := parseCtrl bs
  let up := match port with
    | some n => linkUp (portAt d n)
    | none => true
  let done := freeBuffer port 5 1
  if !up || bs.length ≠ 64 then d
  else if !ctrlCrcOk bs then done (dropCtrl port dropCrc d)
  else if !types.contains c.typ || !want (parseMg c.body) || !mgHere d c then d
  else if expired (nowNs d) (ctrlDeadline (nowNs d) c.deadline) then done (dropCtrl port dropExpired d)
  else done (mgDeliver f c bs d)

/-- A port that the module has, or none. -/
def optPortKnown (p : Option Nat) : Bool := match p with | some n => portKnown n | none => true

/-- MGMT_WRITE (R394). -/
def execMgmtWrite (port : Option Nat) (flit : List Byte) (s : State) : Host.Outcome State Fault Refusal :=
  onFuse (optPortKnown port) (fun f d => mgArrive f port [0x10] (fun _ => true) flit d) s

/-- MGMT_READ (R394). -/
def execMgmtRead (port : Option Nat) (flit : List Byte) (s : State) : Host.Outcome State Fault Refusal :=
  onFuse (optPortKnown port) (fun f d => mgArrive f port [0x11] (fun _ => true) flit d) s

/-- MGMT_REPLY (R540). -/
def execMgmtReply (port : Option Nat) (flit : List Byte) (s : State) : Host.Outcome State Fault Refusal :=
  onFuse (optPortKnown port) (fun f d => mgArrive f port [0x12] (fun _ => true) flit d) s

/-- MGMT_ASSIGN (R395). -/
def execMgmtAssign (port : Option Nat) (flit : List Byte) (s : State) : Host.Outcome State Fault Refusal :=
  onFuse (optPortKnown port) (fun f d => mgArrive f port [0x13] (fun _ => true) flit d) s

/-- A management write whose address lies in `n` bytes from `lo`. -/
def mgRegion (lo n : Nat) (m : MgBody) : Bool := within m.addr lo n

/-- PORT_ROUTED (R375). -/
def execPortRouted (port : Option Nat) (flit : List Byte) (s : State) : Host.Outcome State Fault Refusal :=
  onFuse (optPortKnown port) (fun f d => mgArrive f port [0x10] (mgRegion 0x2000 (18 * 8)) flit d) s

/-- PORT_RETRAIN (R374). -/
def execPortRetrain (port : Option Nat) (flit : List Byte) (s : State) : Host.Outcome State Fault Refusal :=
  onFuse (optPortKnown port)
    (fun f d => mgArrive f port [0x10] (fun m => mgRegion 0x2000 (18 * 8) m && bitOf m.data 1) flit d) s

/-- RT_DECL (R402). -/
def execRtDecl (port : Option Nat) (flit : List Byte) (s : State) : Host.Outcome State Fault Refusal :=
  onFuse (optPortKnown port) (fun f d => mgArrive f port [0x10] (mgRegion 0x4000 8) flit d) s

/-- TT_DECL (R359). -/
def execTtDecl (port : Option Nat) (flit : List Byte) (s : State) : Host.Outcome State Fault Refusal :=
  onFuse (optPortKnown port) (fun f d => mgArrive f port [0x10] (mgRegion 0x4010 8) flit d) s

/-- ROUTING_ENTRY_STAGE (R542). -/
def execRoutingEntryStage (port : Option Nat) (flit : List Byte) (s : State) : Host.Outcome State Fault Refusal :=
  onFuse (optPortKnown port) (fun f d => mgArrive f port [0x10] (mgRegion 0x1000000 (18 * 0x80000)) flit d) s

/-- TIMETABLE_STAGE (R542). -/
def execTimetableStage (port : Option Nat) (flit : List Byte) (s : State) : Host.Outcome State Fault Refusal :=
  onFuse (optPortKnown port) (fun f d => mgArrive f port [0x10] (mgRegion 0x2000000 (18 * 0x10000)) flit d) s

/-! ### Forwarding of control packets -/

/-- A control packet for another module: its check, then its source route or the tables. -/
def ctrlForward (port : Nat) (bs : List Byte) (d : Dev) : Dev :=
  let c := parseCtrl bs
  let p := portAt d port
  let drop := fun (reason : Nat) => freeBuffer (some port) 5 1 (dropCtrl (some port) reason d)
  if !linkUp p || bs.length ≠ 64 then d
  else if !ctrlCrcOk bs then drop dropCrc
  else if !([0x01, 0x02, 0x10, 0x11, 0x12, 0x13]).contains c.typ then drop dropType
  else if c.loc || c.typ < 0x10 || mgHere d c then d
  else if expired (nowNs d) (ctrlDeadline (nowNs d) c.deadline) then drop dropExpired
  else
    let dto := if c.srcrt then (let q := hopPort (parseMg c.body) c.hops; if q < 18 then some q else none)
      else if carries p false then (route d (some port) c.epoch 5 c.dlx c.dmod).map (·.1) else none
    match dto with
    | none => drop (if c.srcrt || carries p false then dropNoroute else dropLink)
    | some out =>
      let k : Pkt := { bytes := setHop 5 c.dlx ((c.hops + 1) % 32) bs, ctrl := true, ingress := some port, vc := 5,
                       inVc := 5, at_ := nowNs d }
      if carriesPkt (portAt d out) k then toEgress out k d else drop dropLink

def execControlPacketForward (port : Nat) (flit : List Byte) (s : State) : Host.Outcome State Fault Refusal :=
  onDev (portKnown port) (ctrlForward port flit) s

/-! ### The fabric-manager mailbox (R540) -/

/-- Sends request `i`: CP.SMOD, CP.DEADLINE and CP.CRC are the module's. -/
def fmSend (f : Fuse) (d : Dev) (i : Nat) : Dev :=
  let a := d.pier.fmBuf + 64 * i
  if linePoisoned d true (lineOf a) then
    let d := hostReadRec (some (lineOf a)) d
    { d with pier := { d.pier with fmBusy := d.pier.fmBusy ++ [(i, 0, nowNs d)] } }
  else
    let c := parseCtrl (readMem d true a 64)
    let c := { c with vc := 5, smod := d.tab.modid, sunasg := !d.tab.modidValid, epoch := d.tab.epoch, hops := 0,
                      deadline := (nowNs d + 100000) % 2 ^ 32 }
    let m := parseMg c.body
    let d := { d with pier := { d.pier with fmBusy := d.pier.fmBusy ++ [(i, m.seqNo, nowNs d)] } }
    if mgHere d c then mgDeliver f c (packCtrl c) d else sendCtrl c d

/-- FM_CMD. -/
def fmStart (f : Fuse) (count : Nat) (d : Dev) : Dev :=
  if d.pier.fmBusy ≠ [] then { d with pier := { d.pier with fmOverrun := true } }
  else if count = 0 ∨ 512 < count then d
  else
    let d := { d with pier := { d.pier with fmDone := false, fmOverrun := false } }
    (List.range count).foldl (fmSend f) d

/-- Whether the registers outside the identity, attention and pier blocks answer (R526). -/
def regsOpen (d : Dev) : Bool := d.hostp.link && d.pwr.phase != .configHold

def execFmCmd (count : Nat) (s : State) : Host.Outcome State Fault Refusal :=
  onFuse true (fun f d => if regsOpen d then fmStart f count d else d) s

/-- FM_REPLY_TIMEOUT: a request unanswered for 1 ms gets a slot with MG.STATUS 0xFF. -/
def fmTimeout (slot : Nat) (d : Dev) : Dev :=
  match d.pier.fmBusy.find? (fun r => r.1 == slot) with
  | none => d
  | some r =>
    if nowNs d < r.2.2 + 1000000 then d
    else
      let bs := packCtrl { typ := 0x12, smod := d.tab.modid, body := packMg { seqNo := r.2.1, op := 2, status := 0xFF } }
      let d := hostPut (d.pier.fmBuf + 0x8000 + 64 * slot) bs d
      let left := d.pier.fmBusy.filter (fun x => x.1 != slot)
      let d := { d with pier := { d.pier with fmBusy := left } }
      if left = [] then attnSet 11 { d with pier := { d.pier with fmDone := true } } else d

def execFmReplyTimeout (slot : Nat) (s : State) : Host.Outcome State Fault Refusal :=
  onDev true (fmTimeout slot) s

end Sys2Proof.Machine
end

