-- ==== Sys2Proof/Machine/Frame.lean ====
section
/-!
DEFINITION. Received frames: the Reed-Solomon code (15 R376, R377), the slots (15 R378) and what each flit does.
-/

namespace Sys2Proof.Machine

/-! ### Field arithmetic -/

/-- Product in GF(2^w) with the field polynomial `poly`. -/
def gfMul (w poly a b : Nat) : Nat :=
  (List.range w).foldl (fun acc i =>
    let acc := 2 * acc
    let acc := if 2 ^ w ≤ acc then acc ^^^ poly else acc
    if bitOf b (w - 1 - i) then acc ^^^ a else acc) 0

/-- Powers. -/
def gfPow (w poly a : Nat) : Nat → Nat
  | 0 => 1
  | n + 1 => gfMul w poly a (gfPow w poly a n)

/-- Squarings of the inverse's exponent 2^w − 2. -/
def gfInvGo (w poly : Nat) : Nat → Nat → Nat → Nat
  | 0, _, acc => acc
  | n + 1, sq, acc => let s := gfMul w poly sq sq; gfInvGo w poly n s (gfMul w poly acc s)

def gfInv (w poly a : Nat) : Nat := gfInvGo w poly (w - 1) a 1

/-! ### RS(136, 130) (R376, R377) -/

def rsPoly : Nat := 0x11D
def m8 (a b : Nat) : Nat := gfMul 8 rsPoly a b

/-- Syndromes S0 to S5 of a codeword, its first byte the highest power. -/
def rsSynd (c : List Nat) : List Nat :=
  (List.range 6).map (fun i =>
    let r := gfPow 8 rsPoly 2 i
    c.foldl (fun acc b => m8 acc r ^^^ b) 0)

/-- The locators X of the bytes of a codeword, first byte first. -/
def rsLocators : List Nat :=
  ((List.range 136).foldl (fun (x : Nat × List Nat) _ => (m8 x.1 2, x.1 :: x.2)) (1, [])).2

/-- Error locator coefficients for v errors from the syndromes, lowest order last; none where the equations are
singular. -/
def rsLambda (s : List Nat) : Nat → Option (List Nat)
  | 1 =>
    let s0 := s.getD 0 0
    if s0 = 0 then none else some [m8 (s.getD 1 0) (gfInv 8 rsPoly s0)]
  | 2 =>
    let g := fun i => s.getD i 0
    let d := m8 (g 0) (g 2) ^^^ m8 (g 1) (g 1)
    if d = 0 then none
    else
      let i := gfInv 8 rsPoly d
      some [m8 i (m8 (g 0) (g 3) ^^^ m8 (g 1) (g 2)), m8 i (m8 (g 1) (g 3) ^^^ m8 (g 2) (g 2))]
  | 3 =>
    let g := fun i => s.getD i 0
    let det := fun (a b c d e f h i j : Nat) =>
      m8 a (m8 e j ^^^ m8 f i) ^^^ m8 b (m8 d j ^^^ m8 f h) ^^^ m8 c (m8 d i ^^^ m8 e h)
    let d := det (g 0) (g 1) (g 2) (g 1) (g 2) (g 3) (g 2) (g 3) (g 4)
    if d = 0 then none
    else
      let k := gfInv 8 rsPoly d
      some [m8 k (det (g 0) (g 1) (g 3) (g 1) (g 2) (g 4) (g 2) (g 3) (g 5)),
            m8 k (det (g 0) (g 3) (g 2) (g 1) (g 4) (g 3) (g 2) (g 5) (g 4)),
            m8 k (det (g 3) (g 1) (g 2) (g 4) (g 2) (g 3) (g 5) (g 3) (g 4))]
  | _ => none

/-- Whether X^v + l1 X^(v-1) + … is 0 at a locator. -/
def rsRoot (l : List Nat) (x : Nat) : Bool := l.foldl (fun acc c => m8 acc x ^^^ c) 1 == 0

/-- Magnitude of the error at locator `x` among locators `xs`, from the syndromes (Lagrange form). -/
def rsMagnitude (s : List Nat) (xs : List Nat) (x : Nat) : Nat :=
  let others := xs.filter (fun y => y != x)
  let poly := others.foldl (fun (p : List Nat) y => ((p ++ [0]).zip (0 :: p)).map (fun (q : Nat × Nat) => q.1 ^^^ m8 y q.2)) [1]
  let num := (poly.zip (List.range poly.length)).foldl (fun (a : Nat) (q : Nat × Nat) => a ^^^ m8 q.1 (s.getD (others.length - q.2) 0)) 0
  let den := others.foldl (fun (a y : Nat) => m8 a (x ^^^ y)) 1
  m8 num (gfInv 8 rsPoly den)

/-- Corrects a codeword with `v` errors; none where that many errors do not explain the syndromes. -/
def rsTry (c s : List Nat) (v : Nat) : Option (List Nat) :=
  match rsLambda s v with
  | none => none
  | some l =>
    let xs := rsLocators.filter (rsRoot l)
    if xs.length ≠ v then none
    else
      let c' := (c.zip rsLocators).map (fun (q : Nat × Nat) => if xs.contains q.2 then q.1 ^^^ rsMagnitude s xs q.2 else q.1)
      if (rsSynd c').all (· == 0) then some c' else none

/-- Decodes a codeword: the codeword within 3 symbols, or none. -/
def rsDecode (c : List Nat) : Option (List Nat) :=
  let s := rsSynd c
  if s.all (· == 0) then some c else (rsTry c s 1).orElse (fun _ => (rsTry c s 2).orElse (fun _ => rsTry c s 3))

/-- Codeword `i` of a frame. -/
def frameWord (bs : List Byte) (i : Nat) : List Nat :=
  (List.range 136).map (fun k => (bs.getD (4 * k + i) 0).toNat)

/-- Decodes a frame: its bytes, and the places of the corrected symbols. -/
def decodeFrame (bs : List Byte) : Option (List Byte × List Nat) :=
  match rsDecode (frameWord bs 0), rsDecode (frameWord bs 1), rsDecode (frameWord bs 2), rsDecode (frameWord bs 3) with
  | some a, some b, some c, some d =>
    let ws := [a, b, c, d]
    let out := (List.range 544).map (fun j => BitVec.ofNat 8 ((ws.getD (j % 4) []).getD (j / 4) 0))
    some (out, (List.range 544).filter (fun j => out.getD j 0 != bs.getD j 0))
  | _, _, _, _ => none

/-! ### Slots (R378) -/

/-- A control packet's flit, by its type. -/
def ctrlArrive (f : Fuse) (port : Nat) (bs : List Byte) (d : Dev) : Dev :=
  let c := parseCtrl bs
  if c.typ = 1 then markArrive f.serial port bs d
  else if c.typ = 2 then identArrive f port bs d
  else if [0x10, 0x11, 0x12, 0x13].contains c.typ && mgHere d c then mgArrive f (some port) [0x10, 0x11, 0x12, 0x13] (fun _ => true) bs d
  else ctrlForward port bs d

/-- A link-control flit, by its type. -/
def lcArrive (port : Nat) (bs : List Byte) (d : Dev) : Dev :=
  match leAt bs 0 1 with
  | 1 => creditArrive port bs d
  | 2 => retrainArrive port bs d
  | 3 => lanesArrive port bs d
  | _ => d

/-- A packet whose flits do not follow each other is dropped whole. -/
def dropPart (port reason : Nat) (d : Dev) : Dev :=
  let p := portAt d port
  if p.rxPart = [] then d
  else
    let x := parseData p.rxPart
    let n := flitsOf p.rxPart
    freeBuffer (some port) p.rxVc n
      (dropPkt (some port) reason (hcrcOk p.rxPart) x (modPort port (fun p => { p with rxPart := [] }) d))

/-- One slot: tag and flit. -/
def slotArrive (f : Fuse) (port tag : Nat) (flit : List Byte) (d : Dev) : Dev :=
  let kind := bitsOf tag 7 6
  let vc := bitsOf tag 5 3
  if !linkUp (portAt d port) ∨ kind = 0 then d
  else if kind = 3 then lcArrive port flit d
  else if 5 ≤ vc then
    if kind ≠ 1 then d
    else if bitOf tag 2 && bitOf tag 1 then freeBuffer (some port) 5 1 (dropCtrl (some port) dropStomp d)
    else ctrlArrive f port flit d
  else
    let d := if kind = 1 then
        modPort port (fun p => { p with rxPart := flit, rxVc := vc }) (dropPart port dropLength d)
      else modPort port (fun p => { p with rxPart := if p.rxPart = [] then [] else p.rxPart ++ flit }) d
    if !bitOf tag 2 then d
    else if bitOf tag 1 then dropPart port dropStomp d
    else
      let bs := (portAt d port).rxPart
      if bs = [] then d else dataForward port bs (modPort port (fun p => { p with rxPart := [] }) d)

/-- A frame that cannot be corrected: every slot is bad (R377); more than 16 within 1 ms make the port retrain
(R374). -/
def badFrame (port : Nat) (d : Dev) : Dev :=
  let now := nowNs d
  let d := raiseFields fabFecUe (unitPort port) none [(port, 8), (1, 32)] (dropPart port dropFec d)
  let times := (now :: (portAt d port).ueTimes).filter (fun t => decide (now < t + 1000000))
  let d := modPort port (fun p => { p with ueTimes := times }) d
  if 16 < times.length then retrainPort port causeFrames d else d

/-- FRAME (R377). -/
def frameArrive (f : Fuse) (port : Nat) (bs : List Byte) (d : Dev) : Dev :=
  if !linkUp (portAt d port) || bs.length ≠ 544 then d
  else
    match decodeFrame bs with
    | none => badFrame port d
    | some (out, fixed) =>
      let d := match fixed with
        | [] => d
        | j :: _ =>
          let lane := if (portAt d port).half then j / 4 % 4 else j / 4 % 8
          raiseFields fabFecCe (unitPort port) none [(port, 8), (lane, 8), (fixed.length, 32)]
            (modPort port (fun p => { p with corrected := p.corrected + fixed.length }) d)
      (List.range 8).foldl (fun d s =>
        slotArrive f port (out.getD (512 + s) 0).toNat ((out.drop (64 * s)).take 64) d) d

def execFrame (port : Nat) (bytes : List Byte) (s : State) : Host.Outcome State Fault Refusal :=
  onFuse (portKnown port) (fun f d => frameArrive f port bytes d) s

end Sys2Proof.Machine
end

