-- ==== Sys2Proof/Machine/HbmMaint.lean ====
section
/-!
DEFINITION. HBM bursts and channels: the burst code (10 R239, R240), uncorrectable lines, fences and the map-out
list (10 R247 to R250), and patrol scrub (10 R242).
-/

namespace Sys2Proof.Machine

/-! ### The burst code (R239, R240) -/

/-- Field polynomial of the burst code. -/
def hbPoly : Nat := 0x1100B

/-- Place of a symbol: symbol n holds the coefficient of x^(35 − n). -/
def hbLocator (n : Nat) : Nat := gfPow 16 hbPoly 2 (35 - n)

/-- Syndromes of an error pattern at the roots 1, α, α², α³. -/
def hbSynd (e : BurstErr) : List Nat :=
  (List.range 4).map (fun j => e.foldl (fun a x => a ^^^ gfMul 16 hbPoly x.2.toNat (gfPow 16 hbPoly (hbLocator x.1) j)) 0)

/-- What the decoder answers on a pattern: the pattern left in the delivered line and whether it corrected symbol
n; none where it detects an error that it cannot correct. -/
def hbDecode (e : BurstErr) : Option (BurstErr × Option Nat) :=
  let e := e.filter (fun x => x.1 < 36 && x.2 != 0)
  let s := hbSynd e
  let s0 := s.getD 0 0
  if s.all (· == 0) then some (e, none)
  else
    let fits := fun n =>
      let x := hbLocator n
      s0 != 0 && (List.range 4).all (fun j => s.getD j 0 == gfMul 16 hbPoly s0 (gfPow 16 hbPoly x j))
    match (List.range 36).find? fits with
    | none => none
    | some n => some (e ++ [(n, BitVec.ofNat 16 s0)], some n)

/-- The 64 data bytes of a line with the symbols of a pattern xored on: pin n carries bytes 2n and 2n + 1. -/
def hbApply (e : BurstErr) (bs : List Byte) : List Byte :=
  e.foldl (fun bs x =>
    if x.1 < 32 then putLe bs (2 * x.1) 2 ((leAt bs (2 * x.1) 2) ^^^ x.2.toNat) else bs) bs

/-! ### Fences (R247 to R250) -/

/-- Stack of a channel. -/
def stackOf (ch : Nat) : Nat := ch / 16

/-- Whether the map-out list has room for one more channel: 8 in all, 2 in a stack (R250). -/
def mapoutRoom (m : BitVec 128) (ch : Nat) : Bool :=
  let l := bitList 128 0 m.toNat
  decide (l.length < 8) && decide ((l.filter (fun c => stackOf c == stackOf ch)).length < 2)

/-- Causes of a fence, in the order of R247. -/
def fenceTraining : Nat := 1
def fenceLines : Nat := 2
def fenceWrite : Nat := 3
def fenceHost : Nat := 4

/-- Enters a channel in the map-out list, or keeps it for the next start-up to find (R249, R250). -/
def mapoutAdd (ch : Nat) (d : Dev) : Dev :=
  if d.run.sec.mapout.getLsbD ch then d
  else if mapoutRoom d.run.sec.mapout ch then
    saveSection (fun s => { s with mapout := s.mapout ||| BitVec.twoPow 128 ch }) d
  else { d with hbmc := { d.hbmc with overflow := d.hbmc.overflow ||| BitVec.twoPow 128 ch } }

/-- Fences a channel: reads deliver poison, writes are discarded (R248). -/
def fenceChannel (ch cause : Nat) (d : Dev) : Dev :=
  if !d.hbmc.active.contains ch || d.hbmc.fenced.getLsbD ch then d
  else
    let d := { d with hbmc := { d.hbmc with
      fenced := d.hbmc.fenced ||| BitVec.twoPow 128 ch, fencedCount := d.hbmc.fencedCount + 1 } }
    mapoutAdd ch (raiseFields hbmFence (unitHbm ch) none [(ch, 8), (cause, 8), (366210, 32)] d)

/-- An uncorrectable read of a line: its HBM_UE record; 16 distinct lines within 1 s fence the channel (R240, R247). -/
def hbmUncorrectable (line symbols : Nat) (d : Dev) : Dev :=
  let x := hbmMap d.hbmc line
  let d := raiseFields hbmUe (unitHbm x.1) none [(x.1, 8), (x.2.1, 8), (x.2.2.1, 48), (symbols, 8)] d
  let now := nowNs d
  let old := (mapGet [] d.hbmc.ueLines x.1).filter (fun p => p.1 != line && decide (now < p.2 + 1000000000))
  let l := (line, now) :: old
  let d := { d with hbmc := { d.hbmc with ueLines := mapPut [] x.1 l d.hbmc.ueLines } }
  if 16 ≤ l.length then fenceChannel x.1 fenceLines d else d

/-- A corrected read: HBM_CE (R240). -/
def hbmCorrected (line pin : Nat) (d : Dev) : Dev :=
  let x := hbmMap d.hbmc line
  raiseFields hbmCe (unitHbm x.1) none [(x.1, 8), (x.2.1, 8), (pin, 8), (x.2.2.1, 48)]
    { d with hbmc := { d.hbmc with ceCount := mapMod 0 x.1 (fun n => n + 1) d.hbmc.ceCount } }

/-- Symbols in error of a pattern. -/
def hbSymbols (e : BurstErr) : Nat := (e.filter (fun x => x.1 < 36 && x.2 != 0)).length

/-- The value that HBM itself holds at a line that no dirty deck line covers. -/
def hbmValue (line : Nat) (d : Dev) : List Byte :=
  match (deckLine d false line).bind (·.under) with
  | some w => leBytes 64 w.toNat
  | none => readMem d false line 64

/-- A line that its deck has just filled holds other bytes than HBM: an error that the burst code did not see. -/
def fillWrong (line : Nat) (bs : List Byte) (d : Dev) : Dev :=
  let old := readMem d false line 64
  if bs = old || !deckHolds d false line then d
  else deckMod false line (fun x => { x with under := some (BitVec.ofNat 512 (ofLe old)) }) (storeRaw false line bs d)

/-- A line that its deck has just filled is poisoned there; HBM keeps what it holds (R243). -/
def fillPoison (host : Bool) (line : Nat) (d : Dev) : Dev := deckMod host line (fun x => { x with poison := true }) d

/-- The burst that fills a deck line: what its error pattern does (R240). A line that HBM holds poisoned stays so. -/
def burstFill (line : Nat) (e : BurstErr) (d : Dev) : Dev :=
  if memPoisoned d false line then d
  else
    match hbDecode e with
    | none => hbmUncorrectable line (hbSymbols e) (fillPoison false line d)
    | some (left, fixed) =>
      let d := fillWrong line (hbApply left (readMem d false line 64)) d
      match fixed with
      | some pin => hbmCorrected line pin d
      | none => d

/-- Second parity failure of an access to a line (R241): a read fills its deck line poisoned, a write fences the channel. -/
def caFailed (line : Nat) (write : Bool) (d : Dev) : Dev :=
  let x := hbmMap d.hbmc line
  let d := raiseFields hbmCa (unitHbm x.1) none [(x.1, 8), (bit01 write, 8)] d
  if write then fenceChannel x.1 fenceWrite d else fillPoison false line d

/-- What a scrub writes back to HBM. A deck that holds the line keeps its own value. -/
def scrubStore (line : Nat) (bs : List Byte) (d : Dev) : Dev :=
  if bs = hbmValue line d then d
  else
    match deckLine d false line with
    | none => storeRaw false line bs d
    | some x =>
      if x.dirty then d else deckMod false line (fun x => { x with under := some (BitVec.ofNat 512 (ofLe bs)) }) d

/-- PATROL_SCRUB (R242): HBM's line is read; a corrected line is written back and an uncorrectable one becomes poison,
unless a write to the line raced the scrub. -/
def scrubLine (line : Nat) (burst : BurstErr) (raced : Bool) (d : Dev) : Dev :=
  let line := lineOf line
  if hbmLost d line || memPoisoned d false line then d
  else
    match hbDecode burst with
    | none =>
      let d := hbmUncorrectable line (hbSymbols burst) d
      if raced then d else markMem false line true d
    | some (_, none) => d
    | some (left, some pin) =>
      hbmCorrected line pin (if raced then d else scrubStore line (hbApply left (hbmValue line d)) d)

def execPatrolScrub (line : Nat) (burst : BurstErr) (raced : Bool) (s : State) : Host.Outcome State Fault Refusal :=
  onDev true (scrubLine line burst raced) s

end Sys2Proof.Machine
end

