-- ==== Sys2Proof/Machine/Resets.lean ====
section
/-!
DEFINITION. Resets (18 R455, 19 R498 to R504, 21 R530), config-hold (18 R462), unanswered accesses (19 R497), the pier's
restart (R489).
-/

namespace Sys2Proof.Machine

/-! ### Units of a reset -/

/-- Type and index of a unit (R480). -/
def unitType (u : Nat) : Nat := u / 4096
def unitIdx (u : Nat) : Nat := u % 4096

/-- Whether the module has the unit (R480). -/
def unitKnown (u : Nat) : Bool :=
  let n := [1, 160, 640, 640, 20, 40, 20, 128, 18, 1, 1, 1, 7, 2].getD (unitType u) 0
  decide (unitIdx u < n)

/-- The core that a unit lies in, of a core, engine or tile. -/
def unitCoreOf (u : Nat) : Option Nat :=
  match unitType u with
  | 1 => some (unitIdx u)
  | 2 => some (unitIdx u / 4)
  | 3 => some (unitIdx u / 4)
  | _ => none

/-- The cluster that a unit lies in. -/
def unitClusterOf (u : Nat) : Option Nat :=
  match unitType u with
  | 4 => some (unitIdx u)
  | 5 => some (unitIdx u / 2)
  | 6 => some (unitIdx u)
  | _ => (unitCoreOf u).map (· / 8)

/-- Whether a unit belongs to a domain: 1 engine, 2 core, 3 cluster, 4 module (R498). -/
def unitOfDomain (domain u : Nat) : Bool :=
  unitKnown u && (match domain with
    | 1 => [2, 5, 6, 7, 8].contains (unitType u)
    | 2 => unitType u == 1
    | 3 => unitType u == 4
    | 4 => unitType u == 0
    | _ => false)

/-- Whether the domain `d1` at unit `u1` encloses the domain `d2` at unit `u2` (R501). -/
def encloses (d1 u1 d2 u2 : Nat) : Bool :=
  decide (d2 < d1) && (match d1 with
    | 2 => unitCoreOf u2 == some (unitIdx u1)
    | 3 => unitClusterOf u2 == some (unitIdx u1)
    | _ => true)

/-- Bound of a reset, ns (R498). -/
def rstBound : Nat → Nat
  | 1 => 10000
  | 2 => 2000000
  | 3 => 50000000
  | _ => 6000000000

/-! ### Contexts that a reset costs (R488, R500, R501) -/

/-- A context that consumes a domain under reset faults with RESET_LOSS; one that has faulted already loses no more. -/
def resetLossOf (unit : Nat) (d : Dev) (c : Nat) : Dev :=
  let st := (ctxAt d c).state
  if st = .free ∨ st = .faulted then d else faultCtx c { cls := resetLoss, unit := unit } d

/-- Contexts that use a core: the resident one, and both of a switch that the core is under. -/
def coreUsers (d : Dev) (c : Nat) : List Nat :=
  (coreAt d c).resident.toList ++ (match d.hostp.switch with
    | some s => (s.out.toList ++ s.inn.toList).filter (fun x => (ctxAt d x).cores.getLsbD c)
    | none => [])

/-- Contexts with a descriptor running on a Dovetail engine. -/
def engineUsers (d : Dev) (e : Nat) : List Nat :=
  d.chans.filterMap (fun p => if p.1 / 16 = e && p.2.run.isSome && !p.2.stopped then p.2.owner else none)

/-- The PLANEs that a Planer serves, the one whose panel is served first. -/
def planerServes (d : Dev) (k : Nat) : List PlanerJob :=
  (mapGet [] d.planers k).filter (fun j => (ctxAt d j.ctx).state == .resident || (ctxAt d j.ctx).state == .draining)

/-- A PLANE that a reset of its Planer takes: its open panel aborts with ERROR, the counts of its committed panels stand, and
RESET_LOSS carries its tag and the first uncommitted panel (R168, R488). -/
def planerLoss (unit : Nat) (d : Dev) (p : PlanerJob) : Dev :=
  let st := (ctxAt d p.ctx).state
  if st = .free ∨ st = .faulted then d
  else failCmd (planeJob p d) { cls := resetLoss, addr := planeAt p, unit := some unit } (endGlue (planerGlue p.core) d)

def lossAll (unit : Nat) (cs : List Nat) (d : Dev) : Dev := cs.foldl (resetLossOf unit) d

/-! ### The effects of a reset -/

/-- A core reset: engines, bench, joist memory, vector registers, Zhevud pipes and trace buffer (R498, R503). -/
def coreReset (c : Nat) (d : Dev) : Dev :=
  let d := zeroVx c (zeroCore c d)
  let d := modCore c (fun x => { x with trace := [], zstep := 0 }) d
  { d with queues := mapClear (4 * c) 4 d.queues, shadow := mapClear (c * 24576) 24576 d.shadow }

/-- An engine reset (R488, R498): a core engine's resident context, a Dovetail engine's running contexts or the context
whose panel was open is lost, and a port drops its queue and retrains. -/
def engineReset (unit : Nat) (d : Dev) : Dev :=
  let i := unitIdx unit
  match unitType unit with
  | 2 => lossAll unit (coreUsers d (i / 4)) d
  | 5 => lossAll unit (engineUsers d i) d
  | 6 => ((planerServes d i).take 1).foldl (planerLoss unit) d
  | 8 => if linkUp (portAt d i) then leaveLink i .retrain causeReset d else dropEgress i dropLink (fun _ => true) d
  | _ => d

/-- The effects of a reset of a domain below the module. -/
def domainReset (domain unit : Nat) (d : Dev) : Dev :=
  let i := unitIdx unit
  match domain with
  | 1 => engineReset unit d
  | 2 => coreReset i (lossAll unit (coreUsers d i) d)
  | 3 =>
    let cs := (List.range 8).map (fun j => 8 * i + j)
    let users := cs.flatMap (coreUsers d) ++ engineUsers d (2 * i) ++ engineUsers d (2 * i + 1)
    cs.foldl (fun d c => coreReset c d) (lossAll unit users ((planerServes d i).foldl (planerLoss unit) d))
  | _ => d

/-- What a port keeps over a module reset (R360, R455, R541). -/
def portKeep (p : Port) : Port :=
  { routedBit := p.routedBit, half := p.half, peer := p.peer, asym := p.asym, dly := p.dly, drops := p.drops,
    corrected := p.corrected }

/-- The decks lose their lines: beneath a host line not written back the host's own bytes show again. -/
def decksLost (d : Dev) : Dev := d.deck.lines.foldl (fun d v => if v.host && v.dirty then showUnder v d else d) d

/-- Everything of the module as a module reset leaves it (R455, R503): the always-on island, flash, tables of the
fabric, the state section and host memory stay; the rest is as at power-on. -/
def moduleCleared (fromReg : Bool) (d : Dev) : Dev :=
  let z : Dev := {}
  let p := d.pwr
  { z with
    pwr := { z.pwr with
      phase := .railsUp, perst := p.perst, mrstLow := p.mrstLow, vin := p.vin, watts := p.watts
      tCompute0 := p.tCompute0, tCompute1 := p.tCompute1, tIo := p.tIo, tHbm := p.tHbm, tStage := p.tStage
      tCoolant := p.tCoolant, throttling := p.throttling, tripCause := p.tripCause, alert := p.alert
      ppsOut := p.ppsOut, smbus := p.smbus, started := nowNs d }
    kt := { d.kt with lateLaunches := 0 }
    flash := d.flash
    run := d.run
    ports := (d.ports.map (fun x => (x.1, portKeep x.2))).filter (fun x => x.2 != {})
    tab := d.tab
    hbmc := { z.hbmc with overflow := d.hbmc.overflow }
    host := (decksLost d).host
    hostPoison := d.hostPoison
    err := { z.err with raised := d.err.raised, boot := d.err.boot, bootLost := d.err.bootLost }
    pier := { z.pier with
      hang := d.pier.hang, hangMissed := d.pier.hangMissed, scanTimes := d.pier.scanTimes, holdNext := d.pier.holdNext }
    resets := [{ domain := 4, unit := 0, since := nowNs d, fromReg := fromReg }]
    free := d.free }

/-- Whether the package rails are up. -/
def railsOn (d : Dev) : Bool :=
  d.pwr.phase != .unpowered && d.pwr.phase != .softStart && d.pwr.phase != .tripped

/-- A module reset (R455): start-up runs again from step 3. Queued packets of the ports drop with reason LINK. -/
def moduleReset (fromReg : Bool) (d : Dev) : Dev :=
  if !railsOn d then d
  else
    let d := d.ports.foldl (fun d (p : Nat × Port) => dropEgress p.1 dropLink (fun _ => true) d) d
    let busy := fromReg || d.resets.any (fun j => j.fromReg)
    moduleCleared busy d

/-- UNCORE (R488, R490): a record and a module reset. -/
def uncoreReset (unit : Nat) (d : Dev) : Dev := moduleReset false (raise uncore unit none 0 0 d)

/-- Starts a reset of a domain (R500, R501). -/
def startReset (domain unit : Nat) (fromReg : Bool) (d : Dev) : Dev :=
  if domain = 4 then moduleReset fromReg d
  else
    let exceeded := fun (j : RstJob) =>
      (j.domain == domain && j.unit.toNat == unit) || encloses j.domain j.unit.toNat domain unit
    if d.resets.any exceeded then
      { d with resets := d.resets.map (fun j => if exceeded j then { j with fromReg := j.fromReg || fromReg } else j) }
    else
      let inner := fun (j : RstJob) => encloses domain unit j.domain j.unit.toNat
      let busy := fromReg || d.resets.any (fun j => inner j && j.fromReg)
      let job : RstJob := { domain := domain, unit := BitVec.ofNat 16 unit, since := nowNs d, fromReg := busy }
      let d := domainReset domain unit d
      { d with resets := d.resets.filter (fun j => !inner j) ++ [job] }

/-- Whether a unit of the RST register is one that the module has: a core absent by the harvest map is none (R3,
R15). -/
def rstIndexOk (f : Fuse) (domain unit : Nat) : Bool :=
  unitOfDomain domain unit && (match unitCoreOf unit with
    | some c => f.harvest.getLsbD c
    | none => true)

/-- A write to RST (R529, R530). -/
def rstWrite (domain : Nat) (index : BitVec 16) (f : Fuse) (d : Dev) : Dev :=
  if regsOpen d && rstIndexOk f domain index.toNat then startReset domain index.toNat true d else d

def execRstEngine (index : BitVec 16) (s : State) : Host.Outcome State Fault Refusal :=
  onFuse true (rstWrite 1 index) s

def execRstCore (index : BitVec 16) (s : State) : Host.Outcome State Fault Refusal :=
  onFuse true (rstWrite 2 index) s

def execRstCluster (index : BitVec 16) (s : State) : Host.Outcome State Fault Refusal :=
  onFuse true (rstWrite 3 index) s

def execRstModule (s : State) : Host.Outcome State Fault Refusal := onFuse true (rstWrite 4 0) s

/-- RST with HOLD_NEXT (R462, R529): a module reset that ends in config-hold. -/
def execRstHoldNext (s : State) : Host.Outcome State Fault Refusal :=
  onFuse true (fun f d =>
    if regsOpen d then rstWrite 4 0 f { d with pier := { d.pier with holdNext := true } } else d) s

/-- RESET_DONE (R500): a reset of an engine, core or cluster ends, or a module reset whose start-up is done. -/
def resetEnds (unit : Nat) (d : Dev) : Dev :=
  match d.resets.find? (fun j => j.unit.toNat == unit && j.domain != 5 && j.domain != 7) with
  | some j =>
    if j.domain < 4 || d.pwr.phase == .ready then
      raise resetDoneCls unit none 0 0 { d with resets := d.resets.filter (fun x => x != j) }
    else d
  | none => d

/-! ### Config-hold (R462) -/

/-- HOLD reasons. -/
def holdFormat : Nat := 1
def holdImageSig : Nat := 2
def holdImageRollback : Nat := 3
def holdConfigSig : Nat := 4
def holdConfigRollback : Nat := 5
def holdFlash : Nat := 6
def holdFuse : Nat := 7
def holdDie : Nat := 8
def holdMapout : Nat := 9
def holdReq : Nat := 10

/-- The module stops in config-hold: BOOT_HOLD with the reason, the image kind and IMG.SVN found (R477), and
ATTN.MAILBOX. -/
def enterHold (reason kind svn : Nat) (d : Dev) : Dev :=
  let d := { d with
    pwr := { d.pwr with phase := .configHold }
    pier := { d.pier with hold := reason, holdNext := false }
    hbmc := { ({} : Hbm) with overflow := d.hbmc.overflow }
    ports := d.ports.map (fun x => (x.1, { x.2 with state := .dark }))
    resets := [] }
  attnSet 11 (raiseFields bootHold unitPier none [(reason, 8), (kind, 8), (svn, 6)] d)

/-! ### Escalation (R498, R499, R504) -/

/-- An escalation to a module reset, which waits for the hang record (R504). -/
def moduleEscalate (d : Dev) : Dev :=
  if d.pier.hang.isSome then moduleReset false (hangTrigger 2 0 d)
  else
    let d := hangTrigger 2 0 d
    { d with resets := d.resets ++ [{ domain := 7, unit := 0, since := nowNs d, fromReg := false }] }

/-- What follows a reset of a domain that has missed its bound. -/
def escalate (j : RstJob) (d : Dev) : Dev :=
  let u := j.unit.toNat
  let i := unitIdx u
  match j.domain, unitType u with
  | 1, 2 => suspectCore (i / 4) (startReset 2 (unitCore (i / 4)) false d)
  | 1, 5 => startReset 3 (unitCluster (i / 2)) false d
  | 1, 6 => startReset 3 (unitCluster i) false d
  | 1, 8 => modPort i (fun p => { p with kept := true }) (leaveLink i .dark causeReset d)
  | 2, _ => startReset 3 (unitCluster (i / 8)) false d
  | 4, _ => { d with resets := d.resets ++ [{ domain := 5, unit := 0, since := nowNs d, fromReg := j.fromReg }] }
  | 6, _ => enterHold holdDie 0 0 d
  | _, _ => moduleEscalate d

/-- RESET_ESCALATE: a reset has missed its bound. -/
def resetLate (unit : Nat) (d : Dev) : Dev :=
  match d.resets.find? (fun j => j.unit.toNat == unit && j.domain != 5 && j.domain != 7) with
  | some j =>
    if j.since + rstBound j.domain ≤ nowNs d && !(4 ≤ j.domain && (d.pwr.phase == .ready || d.pwr.mrstLow)) then
      let d := { d with resets := d.resets.filter (fun x => x != j) }
      escalate j (raiseRec { cls := resetEscalateCls, kind := 3, unit := unit, trig := hangFree d } d)
    else d
  | none => d

def execResetEscalate (unit : BitVec 16) (s : State) : Host.Outcome State Fault Refusal :=
  onDev (unitKnown unit.toNat) (resetLate unit.toNat) s

/-- The package rails are removed and reapplied: start-up runs from step 2 (R499). -/
def cycleRails (d : Dev) : Dev :=
  let busy := d.resets.any (fun j => j.fromReg)
  let d := d.ports.foldl (fun d (p : Nat × Port) => dropEgress p.1 dropLink (fun _ => true) d) d
  let d := moduleCleared busy d
  { d with
    pwr := { d.pwr with phase := .softStart }
    resets := [{ domain := 6, unit := 0, since := nowNs d, fromReg := busy }] }

/-- RAIL_CYCLE: after a module reset that missed its bound. -/
def execRailCycle (s : State) : Host.Outcome State Fault Refusal :=
  onDev true (fun d => if d.resets.any (fun j => j.domain == 5) then cycleRails d else d) s

/-! ### The pier restarts (R489) -/

/-- Whether the pier controller runs. -/
def pierRuns (d : Dev) : Bool := railsOn d && d.pwr.phase != .railsUp

/-- Ends the running mailbox command with a result (R539). -/
def mboxFinish (d : Dev) : Dev :=
  match d.pier.busy with
  | some (_, result, len) =>
    attnSet 11 { d with pier := { d.pier with busy := none, done := true, result := result, length := len } }
  | none => d

/-- A pier restart: a mailbox command in flight ends with MBOX_BUSY, and a hang record being taken is abandoned, so that
a reset that waited for it starts. -/
def pierRestarts (d : Dev) : Dev :=
  if !pierRuns d then d
  else
    let waits := d.resets.any (fun j => j.domain == 7)
    let d := { d with pier := { d.pier with
      busy := d.pier.busy.map (fun b => (b.1, 1, 0)), hangBusy := none, scan := none } }
    let d := raise pierReset unitPier none 0 0 (mboxFinish d)
    if waits then moduleReset false d else d

def execPierRestart (s : State) : Host.Outcome State Fault Refusal := onDev true pierRestarts s

/-! ### Unanswered accesses (R497) -/

/-- Cause of a fence for a channel that does not answer (R488). -/
def fenceSilent : Nat := 5

/-- The containment of R488 for a unit that does not answer. -/
def contain (u : Nat) (d : Dev) : Dev :=
  match unitType u with
  | 1 => startReset 2 u false d
  | 2 => startReset 1 u false d
  | 3 => suspectCore (unitIdx u / 4) (lossAll u (coreUsers d (unitIdx u / 4)) d)
  | 5 => startReset 1 u false d
  | 6 => startReset 1 u false d
  | 7 => fenceChannel (unitIdx u) fenceSilent d
  | 8 => retrainPort (unitIdx u) causeReset d
  | 9 => { d with hostp := { d.hostp with link := false } }
  | 10 => pierRestarts d
  | 11 => uncoreReset u d
  | 12 => uncoreReset u d
  | _ => d

/-- ACCESS_TIMEOUT: a read delivers poison to the bench words it fills, a deck fill poisons its line, a write is
discarded, a Dovetail access sees a bus error, and the silent unit takes an ENGINE_FAULT. -/
def accessLost (silent : Nat) (ctx : Option Nat) (bench : Option (Nat × Nat)) (hbmLine chan : Option Nat)
    (write : Bool) (d : Dev) : Dev :=
  if d.pwr.phase != .ready then d
  else
    let d := match bench with
      | some (c, a) => if write then d else benchPoison c (lineOf a) 64 d
      | none => d
    let d := match hbmLine with
      | some l =>
        let line := lineOf l
        if write || deckHolds d false line then d else fillPoison false line (deckTake false line false d)
      | none => d
    let d := match chan with
      | some m => (match chanOwner d m, (chanAt d m).run with
        | some x, some r => if r.halted || r.retryAt.isSome then d else dvBusError m x d
        | _, _ => d)
      | none => d
    contain silent (raise engineFault silent ctx 0 0 d)

def execAccessTimeout (unit silent : BitVec 16) (ctx : Option Nat) (bench : Option (Nat × Nat))
    (hbmLine chan : Option Nat) (write : Bool) (s : State) : Host.Outcome State Fault Refusal :=
  let benchOk := match bench with | some (c, a) => coreKnown c && decide (a < benchSize) | none => true
  let chanOk := match chan with | some m => chanKnown m | none => true
  onDev (unitKnown unit.toNat && unitKnown silent.toNat && benchOk && chanOk)
    (accessLost silent.toNat ctx bench hbmLine chan write) s

end Sys2Proof.Machine
end

