-- ==== Sys2Proof/Machine/DeckCache.lean ====
section
/-!
DEFINITION. DECK_ACCESS: a plain read or write at the home deck (01 R16, R17, R25; 10 R256, R257; 11 R259 to R262, R279;
19 R490), with the memory errors that it may meet.
-/

namespace Sys2Proof.Machine

/-- The write-back of the line that makes room fails its retry, which fences its channel (R241). -/
def victimFails (f : DeckF) (line : Nat) (d : Dev) : Dev :=
  if deckHolds d f.host line || (if f.host then !d.hostp.link else hbmLost d line) then d
  else
    match victimOf d (setKey d f.host line) with
    | some (some v) => if v.dirty && !v.host && decide (2 ≤ f.wbFail) then caFailed v.line true d else d
    | _ => d

/-- The fill of a line that its deck has made room for: a host read with its HOST_MEM causes and capture, or a burst from
HBM (R240, R241, R256, R257, R515). -/
def deckFill (f : DeckF) (line : Nat) (d : Dev) : Dev :=
  if f.host then
    let d := if memPoisoned d true line then raiseHostMem line (if d.hostp.link then 3 else 2) d else d
    match f.ctx with
    | some c =>
      if d.hostp.link then kzHostRead c line d else d
    | none => d
  else if 2 ≤ f.caFail then caFailed line false d
  else burstFill line f.burst d

/-- The bytes of a write that the mask selects reach the line at its home deck: a whole line of clean data clears poison
(R243); a fenced channel and a host link that is down discard them (R248, R257). -/
def deckStore (host : Bool) (line : Nat) (data : BitVec 512) (mask : BitVec 64) (d : Dev) : Dev :=
  let bs := leBytes 64 data.toNat
  let whole := mask == BitVec.allOnes 64
  if writeLost d host line then loseWrite host line d
  else
    let d := deckDirty host line (deckTake host line whole d)
    let d := if host then { d with host := memWriteMask d.host line mask.toNat bs }
      else { d with hbm := memWriteMask d.hbm line mask.toNat bs }
    if whole then cleanLine host line d else d

/-- Serves an access whose tag was read: a hit, or a miss with its fill, and the write. -/
def deckServe (f : DeckF) (line : Nat) (d : Dev) : Dev :=
  let whole := match f.write with | some (_, m) => m == BitVec.allOnes 64 | none => false
  let hit := deckHolds d f.host line
  let d := deckTake f.host line whole (victimFails f line d)
  let d := if hit || whole then d else deckFill f line d
  match f.write with
  | none => d
  | some (data, mask) => deckStore f.host line data mask d

/-- Bank and set of a line with its home deck, as DECK_CE and DECK_TAG name them (R289). -/
def deckPlace (d : Dev) (host : Bool) (line : Nat) : List (Nat × Nat) :=
  [(homeDeck d.hbmc host line, 5), (deckSet line / 512, 4), (deckSet line % 512, 9)]

/-- A corrected single-bit error of a deck (R262): DECK_CE. Which way holds the line is a free value, below 12. -/
def deckCorrected (host : Bool) (line bit : Nat) (d : Dev) : Dev :=
  let w := drawNat d
  raiseFields deckCe (unitCluster (homeDeck d.hbmc host line)) none
    (deckPlace d host line ++ [(w.1 % 12, 4), (bit, 10)]) w.2

/-- A double-bit tag error (R490): DECK_TAG; with a good shadow tag the line is written back and its way retired; without,
its address is unknown and the module resets. -/
def deckTagError (host : Bool) (line : Nat) (good : Bool) (d : Dev) : Dev :=
  let key := setKey d host line
  let u := unitCluster (homeDeck d.hbmc host line)
  let d := raiseFields deckTag u none (deckPlace d host line) d
  if !good then uncoreReset u d
  else
    let d := match deckLine d host line with
      | some v => deckEvict v d
      | none => d
    { d with deck := { d.deck with retired := mapMod 0 key (fun n => min 12 (n + 1)) d.deck.retired } }

/-- An error in a word of a held line (R262): a single-bit one is corrected and leaves DECK_CE, a double-bit one poisons
the deck's line and leaves DECK_UE. -/
def deckDataError (host : Bool) (line bit : Nat) (double : Bool) (d : Dev) : Dev :=
  let k := homeDeck d.hbmc host line
  if double then fillPoison host line (raiseFields deckUe (unitCluster k) none [(k, 5), (line, 48)] d)
  else deckCorrected host line bit d

/-- DECK_ACCESS: an access that meets a held line waits; one that meets an open glue-up's mark aborts the glue-up
(R279). -/
def deckPlain (f : DeckF) (d : Dev) : Dev :=
  let line := lineOf f.line
  if !f.host && (decide (hbmSpan d.hbmc ≤ line) || lineHeld d line) then d
  else
    let d := if f.host then d else plainAccess [line] d
    let d := match f.dataErr with
      | some (bit, double) => if deckHolds d f.host line then deckDataError f.host line bit double d else d
      | none => d
    let d := match f.tagCe with
      | some bit => deckCorrected f.host line bit d
      | none => d
    match f.tagErr with
    | none => deckServe f line d
    | some good =>
      let d := deckTagError f.host line good d
      if good then deckServe f line d else d

/-- A host line lies below 2^48 (R256). -/
def execDeckAccess (f : DeckF) (s : State) : Host.Outcome State Fault Refusal :=
  onDev (decide (f.line < 2 ^ 48)) (deckPlain f) s

end Sys2Proof.Machine
end

