-- ==== Sys2Proof/Machine/HostLink.lean ====
section
/-!
DEFINITION. The host link and what crosses it beside the rings (17 R423 to R428, R431, R454; 10 R256, R257): link states,
snoops, the CXL.mem window.
-/

namespace Sys2Proof.Machine

/-! ### Link states (R424, R425, R451, R454) -/

/-- Whether the host link may be up: from die release on and in config-hold, with PERST# and MRST_N released. -/
def hostLinkAllowed (d : Dev) : Bool :=
  !d.pwr.perst && !d.pwr.mrstLow
    && (fabricOn d || d.pwr.phase == .configHold)

/-- Widths and rates of R423. -/
def linkModeOk (width rate : Nat) (cxl31 : Bool) : Bool :=
  [16, 8, 4].contains width && [64, 32, 16].contains rate && (cxl31 || decide (rate ≤ 32))

/-- The host link goes down (R425, R454): contexts run on, and descriptors stop entering. -/
def hostLinkFalls (d : Dev) : Dev := { d with hostp := { d.hostp with link := false } }

/-- The 32 bytes of completion records and the 64 of error records that the I/O-die buffer held reach host memory, in
order. -/
def flushHeld (d : Dev) : Dev :=
  let recs := d.hostp.ioRecs
  recs.foldl (fun d x => hostPut x.1 x.2 d) { d with hostp := { d.hostp with ioRecs := [] } }

/-- The host link comes up: every live ring's doorbell line awaits its re-read (R425). -/
def hostLinkRises (d : Dev) : Dev :=
  let rings := d.hostp.rings.map (fun x => (x.1, if x.2.live then { x.2 with snooped := true } else x.2))
  flushHeld { d with hostp := { d.hostp with link := true, reread := true, rings := rings } }

/-- HOST_LINK_TRAINING: start-up step 8 (R451). -/
def hostTrain (width rate : Nat) (cxl31 : Bool) (d : Dev) : Dev :=
  if d.hostp.link || !hostLinkAllowed d || !linkModeOk width rate cxl31 then d
  else hostLinkRises { d with hostp := { d.hostp with width := width, rate := rate, cxl31 := cxl31 } }

def execHostLinkTraining (width rate : Nat) (cxl31 : Bool) (s : State) : Host.Outcome State Fault Refusal :=
  onDev true (hostTrain width rate cxl31) s

/-- HOST_LINK_DOWN (R425). -/
def execHostLinkDown (s : State) : Host.Outcome State Fault Refusal := onDev true hostLinkFalls s

/-- HOST_LINK_UP: a link that was down has retrained (R424, R425). -/
def execHostLinkUp (s : State) : Host.Outcome State Fault Refusal :=
  onDev true (fun d =>
    if d.hostp.link || !hostLinkAllowed d then d
    else hostLinkRises (raise hostLinkCls unitHost none 0 0 d)) s

/-- HOST_LINK: the link has degraded or retrained to a width and a rate (R424). -/
def execHostLink (width rate : Nat) (s : State) : Host.Outcome State Fault Refusal :=
  onDev true (fun d =>
    if d.hostp.link && linkModeOk width rate d.hostp.cxl31 then
      raise hostLinkCls unitHost none 0 0 { d with hostp := { d.hostp with width := width, rate := rate } }
    else d) s

/-! ### Snoops of host lines (R256, R431) -/

/-- The host's store to one of its lines; whole lines of clean data end CXL data poison. -/
def hostStore (line : Nat) (data : BitVec 512) (mask : BitVec 64) (d : Dev) : Dev :=
  let d := { d with host := memWriteMask d.host line mask.toNat (leBytes 64 data.toNat) }
  if mask = BitVec.allOnes 64 then markMem true line false d else d

/-- The host's store while the link is down: no snoop reaches the module, and a line that a deck holds as its own keeps
its value above the host's. -/
def hostStoreDark (line : Nat) (data : BitVec 512) (mask : BitVec 64) (d : Dev) : Dev :=
  match deckLine d true line with
  | some x =>
    if x.dirty then
      let old := leBytes 64 (x.under.getD 0).toNat
      let new := BitVec.ofNat 512 (ofLe (maskBytes mask.toNat old (leBytes 64 data.toNat)))
      deckMod true line (fun x => { x with under := some new }) d
    else hostStore line data mask (deckDrop true line d)
  | none => hostStore line data mask d

/-- HOST_SNOOP: the host takes a line away from the module, to read it or to store to it. It finds the latest value, with
its poison; a live ring's doorbell line awaits its re-read. With the link down no snoop arrives (R425). -/
def hostSnoop (line : Nat) (store : Option (BitVec 512 × BitVec 64)) (d : Dev) : Dev :=
  let line := lineOf line
  if !d.hostp.link then
    (match store with
     | none => d
     | some (data, mask) => hostStoreDark line data mask d)
  else
    let d := match deckLine d true line with
      | some v => deckEvict v d
      | none => d
    match store with
    | none => { d with hostp := { d.hostp with
        memReply := BitVec.ofNat 512 (readMemLe d true line 64), memPoison := mapGet false d.hostPoison line } }
    | some (data, mask) =>
      let d := hostStore line data mask d
      { d with hostp := { d.hostp with
        rings := d.hostp.rings.map (fun x => (x.1, if x.2.live && x.2.db == line then { x.2 with snooped := true } else x.2)) } }

def execHostSnoop (line : Nat) (store : Option (BitVec 512 × BitVec 64)) (s : State) :
    Host.Outcome State Fault Refusal :=
  onDev (decide (line < 2 ^ 48)) (hostSnoop line store) s

/-- A host access without an answer for 50 µs, or with an error completion (R257): a read fills its deck line poisoned,
and of a write the line's newer value is discarded. -/
def hostAccessLost (line cause : Nat) (write : Bool) (d : Dev) : Dev :=
  let d :=
    if write then
      match deckLine d true line with
      | some v => if v.dirty then showUnder v (deckDrop true line d) else d
      | none => d
    else fillPoison true line (deckTake true line false d)
  raiseHostMem line cause d

/-- HOST_ACCESS_TIMEOUT (R257). -/
def execHostAccessTimeout (line cause : Nat) (write : Bool) (s : State) : Host.Outcome State Fault Refusal :=
  onDev (decide (line < 2 ^ 48)) (hostAccessLost (lineOf line) (cause % 256) write) s

/-! ### The CXL.mem window (R426 to R428) -/

/-- Whether a line lies in the committed window. -/
def inWindow (d : Dev) (pa : Nat) : Bool :=
  d.hostp.link && d.hostp.memActive && d.hostp.hdmCommitted
    && decide (d.hostp.hdmBase ≤ pa) && decide (pa < d.hostp.hdmBase + d.hostp.hdmSize)

/-- WINDOW_READ: a line through its home deck; poison is returned as CXL data poison. A held line makes it wait. -/
def windowRead (pa : Nat) (d : Dev) : Dev :=
  let line := lineOf pa
  if !inWindow d line || lineHeld d line then d
  else
    let d := deckRead false line 64 d
    { d with hostp := { d.hostp with
      memReply := BitVec.ofNat 512 (readMemLe d false line 64), memPoison := linePoisoned d false line } }

def execWindowRead (pa : Nat) (s : State) : Host.Outcome State Fault Refusal := onDev true (windowRead pa) s

/-- The bytes that a mask selects, the others zero (R515). -/
def maskedBytes : Nat → List Byte → List Byte
  | _, [] => []
  | m, b :: bs => (if m % 2 = 1 then b else 0) :: maskedBytes (m / 2) bs

/-- WINDOW_WRITE: the selected bytes of a line through its home deck, and its capture record (R515). -/
def windowWrite (pa : Nat) (data : BitVec 512) (mask : BitVec 64) (d : Dev) : Dev :=
  let line := lineOf pa
  if !inWindow d line || lineHeld d line then d
  else
    let d := deckStore false line data mask (plainAccess [line] d)
    if d.kz.en && d.kz.hostMem then
      kzRecord 7 0 line 0 (sm3Bytes (leBytes 8 mask.toNat ++ maskedBytes mask.toNat (leBytes 64 data.toNat))) d
    else d

def execWindowWrite (pa : Nat) (data : BitVec 512) (mask : BitVec 64) (s : State) : Host.Outcome State Fault Refusal :=
  onDev true (windowWrite pa data mask) s

/-- HDM_COMMIT (R426, R453): refused before ready, and for a range that is misaligned, too large or beyond the active
span. -/
def hdmCommit (d : Dev) : Dev :=
  let u := 256 * 2 ^ 20
  if d.pwr.phase = .ready && d.hostp.link && aligned u d.hostp.hdmBase && aligned u d.hostp.hdmSize
      && decide (d.hostp.hdmSize ≤ 63887638528) && decide (d.hostp.hdmBase + d.hostp.hdmSize ≤ hbmSpan d.hbmc) then
    { d with hostp := { d.hostp with hdmCommitted := true } }
  else d

def execHdmCommit (s : State) : Host.Outcome State Fault Refusal := onDev true hdmCommit s

end Sys2Proof.Machine
end

