-- ==== Sys2Proof/Machine/Rings.lean ====
section
/-!
DEFINITION. Rings, doorbells, taking descriptors and completion records (17 R429 to R436, R443, R444; 20 R515).
-/

namespace Sys2Proof.Machine

/-- Rings of the contexts and the admin ring 4,096 (R429). -/
def ringKnown (r : Nat) : Bool := decide (r ≤ 4096)

def adminRing : Nat := 4096

/-- Context of a ring. -/
def ringCtx (r : Nat) : Option Nat := if r = adminRing then none else some r

/-! ### The directory (R429) -/

/-- Bits of a field list set in a word: (first bit, width). -/
def fieldMask (l : List (Nat × Nat)) : Nat := bitMap (l.flatMap (fun x => (List.range x.2).map (fun i => x.1 + i)))

/-- Whether a word of `n` bits has a bit outside the given fields. -/
def reservedSet (v n : Nat) (l : List (Nat × Nat)) : Bool := (v &&& ((2 ^ n - 1) ^^^ (fieldMask l &&& (2 ^ n - 1)))) != 0

/-- HOST_RING halts a ring (R432). -/
def haltRing (r addr : Nat) (d : Dev) : Dev :=
  raise hostRing unitHost (ringCtx r) addr 0 (modRing r (fun x => { x with halted := true }) d)

/-- The module reads a directory entry and holds it; its doorbell line awaits the first read. Sizes or alignments
outside their ranges halt the ring; reserved bits are not looked at (R12). A read that meets poison or a link that is down
leaves a halted ring and its HOST_MEM record (R257). -/
def installRing (r : Nat) (d : Dev) : Dev :=
  let a := d.hostp.ringDir + 64 * r
  let v := readMemLe d true a 64
  let sq := bitsOf v 52 48
  let cq := bitsOf v 116 112
  let ring : Ring := { live := true, sqBase := bitsOf v 47 0, sqLog2 := sq, cqBase := bitsOf v 111 64, cqLog2 := cq,
                       db := bitsOf v 175 128, snooped := true }
  let ok := decide (6 ≤ sq) && decide (sq ≤ 16) && decide (6 ≤ cq) && decide (cq ≤ 16)
    && aligned (64 * 2 ^ sq) ring.sqBase && aligned (32 * 2 ^ cq) ring.cqBase && aligned 64 ring.db
  let po := firstPoison d true a 64
  if po.isSome then hostReadRec po (modRing r (fun _ => { live := true, halted := true }) d)
  else
    let d := modRing r (fun _ => ring) d
    if ok then d else haltRing r a d

/-- The module drops a directory entry. -/
def dropRing (r : Nat) (d : Dev) : Dev := modRing r (fun _ => {}) d

/-! ### Doorbells (R430 to R432) -/

/-- Whether a ring's submissions are captured: of a selected context, or the admin ring with KZ.ADMIN (R513, R515). -/
def ringCaptured (d : Dev) (r : Nat) : Bool :=
  match ringCtx r with
  | some c => kzCtx d c
  | none => d.kz.en && d.kz.admin

/-- The re-read of a doorbell line: both counts are taken. DB.SQ_TAIL that moves backward, or passes SQ_HEAD by more
than the ring, halts the ring. -/
def doorbellRead (r : Nat) (d : Dev) : Dev :=
  let x := ringAt d r
  if !x.live || !x.snooped || !d.hostp.link then d
  else if linePoisoned d true x.db then raiseHostMem x.db 3 d
  else
    let tail := BitVec.ofNat 32 (readMemLe d true x.db 4)
    let head := BitVec.ofNat 32 (readMemLe d true (x.db + 4) 4)
    let bad := decide (2 ^ x.sqLog2 < (tail - x.sqHead).toNat)
      || decide ((tail - x.sqHead).toNat < (x.sqTail - x.sqHead).toNat)
    let d := modRing r (fun x => { x with snooped := false, cqHead := head, stall := false }) d
    let d := if ringCaptured d r then
        kzRecord 2 ((ringCtx r).getD 0) (packFields [(tail.toNat, 32), (head.toNat, 32)]) 0 [] d
      else d
    let d := if d.hostp.rings.any (fun y => y.2.live && y.2.snooped) then d
      else { d with hostp := { d.hostp with reread := false } }
    if x.halted then d
    else if bad then haltRing r tail.toNat d
    else modRing r (fun x => { x with sqTail := tail }) d

def execDoorbellReread (ring : Nat) (s : State) : Host.Outcome State Fault Refusal :=
  onDev (ringKnown ring) (doorbellRead ring) s

/-! ### Descriptors -/

/-- The descriptor as a 512-bit number. -/
def Desc.word (x : Desc) : Nat := ofLe x.bytes

def kNop : Nat := 0x01
def kLaunch : Nat := 0x10
def kFlagSet : Nat := 0x11
def kFlagClr : Nat := 0x12
def kFlagWait : Nat := 0x13
def kFlagMap : Nat := 0x14
def kFlagUnmap : Nat := 0x15
def kDescMint : Nat := 0x16
def kWrite64 : Nat := 0x17
def kXlateFlush : Nat := 0x18
def kCtxCreate : Nat := 0x20
def kCtxDestroy : Nat := 0x21
def kCtxSwitch : Nat := 0x22
def kClockPlan : Nat := 0x23

/-- Whether a ring accepts a kind (R438). -/
def kindAccepted (ring kind : Nat) : Bool :=
  kind == kNop || (if ring = adminRing then decide (kCtxCreate ≤ kind) && decide (kind ≤ kClockPlan)
    else decide (kLaunch ≤ kind) && decide (kind ≤ kXlateFlush))

/-- Body fields of a kind: (first bit of the descriptor, width) (R438). -/
def kindFields (kind : Nat) : List (Nat × Nat) :=
  if kind = kLaunch then [(64, 48), (128, 64), (192, 17)]
  else if kind = kFlagSet ∨ kind = kFlagClr then
    (List.range 8).flatMap (fun i => [(64 + 16 * i, 14), (79 + 16 * i, 1)])
  else if kind = kFlagWait then [(64, 14), (80, 1)]
  else if kind = kFlagMap then [(64, 14), (96, 32)]
  else if kind = kFlagUnmap then [(64, 14)]
  else if kind = kDescMint then [(64, 16), (128, 48)]
  else if kind = kWrite64 then [(64, 48), (128, 64), (192, 8)]
  else if kind = kXlateFlush then [(64, 48), (128, 64)]
  else if kind = kCtxCreate then [(64, 12), (128, 48)]
  else if kind = kCtxDestroy then [(64, 12)]
  else if kind = kCtxSwitch then [(64, 12), (80, 12), (95, 1)]
  else if kind = kClockPlan then [(64, 64), (128, 120)]
  else []

/-- Whether a reserved bit of the descriptor is set (R437). -/
def descBad (x : Desc) : Bool := reservedSet x.word 512 ([(0, 11), (32, 32)] ++ kindFields x.kind)

/-- The header of a descriptor (R437). -/
def parseSd (bs : List Byte) : Desc :=
  let v := leAt bs 0 8
  { bytes := bs, seqNo := BitVec.ofNat 32 (bitsOf v 63 32), kind := bitsOf v 7 0, group := bitsOf v 9 8, fence := bitOf v 10 }

/-! ### Completion -/

/-- A descriptor completes with a code (R443, R444). -/
def complete (ring : Nat) (x : Desc) (error glue : Nat) (d : Dev) : Dev :=
  pushComp ring { seqNo := x.seqNo, kind := x.kind, error := error, glue := glue } d

/-- Launches of a context's ring that have started and not completed. -/
def ringLaunches (d : Dev) (ring : Nat) : Nat :=
  match ringCtx ring with
  | some c => ((ctxAt d c).launches.filter (fun l => l.ring == ring)).length
  | none => 0

/-- Whether an earlier descriptor of the ring has started and not completed (R435). -/
def ringBusy (d : Dev) (ring : Nat) : Bool :=
  (ringAt d ring).waiting != [] || ringLaunches d ring != 0
    || (ring == adminRing && (d.pwr.plan.isSome || (match d.hostp.switch with | some s => s.seqNo.isSome | none => false)))

/-- Removes the front of the taken descriptors. -/
def popTaken (ring n : Nat) (d : Dev) : Dev := modRing ring (fun x => { x with taken := x.taken.drop n }) d

/-- Descriptors at the front that no start takes: a kind that the ring does not accept fails with HOST_KIND, and one
inside or last of no group with GLUE_BODY (R438, R441). -/
def settle (ring : Nat) : Nat → Dev → Dev
  | 0, d => d
  | fuel + 1, d =>
    match (ringAt d ring).taken with
    | x :: _ =>
      if x.fence && ringBusy d ring then d
      else if 2 ≤ x.group then settle ring fuel (complete ring x glueBody 9 (popTaken ring 1 d))
      else if x.group = 0 && !kindAccepted ring x.kind then settle ring fuel (complete ring x hostKind 0 (popTaken ring 1 d))
      else d
    | [] => d

def settleRing (ring : Nat) (d : Dev) : Dev := settle ring (ringAt d ring).taken.length d

/-! ### Taking (R432, R433, R435) -/

/-- Bytes of the images that a descriptor names: a mint image or a record image (R515). -/
def namedImage (d : Dev) (x : Desc) : List Byte :=
  let a := bitsOf x.word 175 128
  if x.kind = kDescMint then readMem d true a 192
  else if x.kind = kCtxCreate then readMem d true a 256
  else []

/-- The SUBMIT record of a descriptor (R515): `head` is SQ_HEAD after taking it. -/
def kzSubmit (ring : Nat) (head : BitVec 32) (x : Desc) (d : Dev) : Dev :=
  if ringCaptured d ring then
    kzRecord 1 ((ringCtx ring).getD 0)
      (packFields [(x.seqNo.toNat, 32), (x.kind, 8), (bit01 (ring == adminRing), 1)]) head.toNat
      (sm3Bytes (x.bytes ++ namedImage d x)) d
  else d

/-- DESCRIPTOR_TAKE: one descriptor in ring order, when a completion slot is sure to await it (R433): with an incomplete
group (`gatherGroup`) the only wait of the module for its host (R449). A ring that stops for want of a slot sets
ATTN.CQ_FULL. The SUBMIT record of a group's member waits for its group. -/
def takeOne (r : Nat) (d : Dev) : Dev :=
  let x := ringAt d r
  if d.pwr.phase != .ready || !d.hostp.link || d.hostp.reread || !x.live || x.halted || x.drop || x.sqHead == x.sqTail then d
  else if 2 ^ x.cqLog2 ≤ (x.sqHead - x.cqHead).toNat then
    if x.stall then d else attnSet 3 (modRing r (fun x => { x with stall := true }) d)
  else
    let a := x.sqBase + 64 * (x.sqHead.toNat % 2 ^ x.sqLog2)
    let e := parseSd (readMem d true a 64)
    let po := linePoisoned d true a
    let d := modRing r (fun x => { x with sqHead := x.sqHead + 1, stall := false }) d
    if po then complete r e hostMem 0 (raiseHostMem a 3 d)
    else
      let d := modRing r (fun x => { x with taken := x.taken ++ [e] }) d
      let inGroup := e.group != 0
      let d := if inGroup then d else kzSubmit r (x.sqHead + 1) e d
      settleRing r d

def execDescriptorTake (ring : Nat) (s : State) : Host.Outcome State Fault Refusal :=
  onDev (ringKnown ring) (takeOne ring) s

/-! ### Completion records (R434, R443) -/

/-- The 32 bytes of a completion record, and the host address of its slot. -/
def compBytes (d : Dev) (x : Ring) (c : Comp) : Nat × List Byte :=
  let n := x.cqWritten.toNat
  (x.cqBase + 32 * (n % 2 ^ x.cqLog2),
    leBytes 8 (packFields [(c.seqNo.toNat, 32), (c.kind, 8), (phaseOf n x.cqLog2, 1), (bit01 c.late, 1), (0, 6),
      (attnWord d.attn, 16)])
    ++ leBytes 8 (packFields [(c.error, 16), (c.glue, 4), (0, 12), (x.sqHead.toNat, 32)])
    ++ leBytes 8 c.kt ++ leBytes 8 c.detail)

/-- Writes the oldest completion of a ring as its next record, with ATTN.COMPLETION set; with the link down it waits in
the I/O-die buffer, and with that full on its ring (R425). -/
def writeComp (r : Nat) (d : Dev) : Dev :=
  let x := ringAt d r
  match x.comps with
  | [] => d
  | c :: cs =>
    if !d.hostp.link && decide (1024 ≤ d.hostp.ioRecs.length) then d
    else
      let d := attnSet 0 d
      let b := compBytes d x c
      let d := modRing r (fun x => { x with comps := cs, cqWritten := x.cqWritten + 1 }) d
      if d.hostp.link then hostPut b.1 b.2 d
      else { d with hostp := { d.hostp with ioRecs := d.hostp.ioRecs ++ [b] } }

/-- COMPLETION_RECORD. An admin ring that the host has disabled is dropped with its last record. -/
def completionRecord (r : Nat) (d : Dev) : Dev :=
  let d := settleRing r (writeComp r d)
  let x := ringAt d r
  if x.drop && x.comps == [] && x.taken == [] && !ringBusy d r then dropRing r d else d

def execCompletionRecord (ring : Nat) (s : State) : Host.Outcome State Fault Refusal :=
  onDev (ringKnown ring) (completionRecord ring) s

end Sys2Proof.Machine
end

