-- ==== Sys2Proof/Machine/Residency.lean ====
section
/-!
DEFINITION. Residency of contexts on their cores (13 R328, R329), and the save area (R334, R335; 08 R202).
-/

namespace Sys2Proof.Machine

/-- The cores of a context, ascending. -/
def coresOf (x : Ctx) : List Nat := bitList 160 0 x.cores.toNat

/-! ### The save area (R335) -/

def saveCtxBytes : Nat := 0x10000
def saveCoreBytes : Nat := 0x20A000
def saveJoist : Nat := 0x180000
def saveVx : Nat := 0x208000
def saveQueue : Nat := 0x209000

/-- Address of the block of the i-th core of a context. -/
def saveBlock (x : Ctx) (i : Nat) : Nat := x.saveBase + saveCtxBytes + i * saveCoreBytes

/-- `n` free bytes as entries from `a` on. -/
def freeMem (a n : Nat) (d : Dev) : Mem × Dev :=
  (memOf a ((List.range n).map (fun i => Config.freeByte (d.free + i))), { d with free := d.free + n })

/-- The listed entries of a map among `n` keys from `k` on, keys made relative. -/
def mapSlice {α : Type} (m : SMap α) (k n : Nat) : SMap α :=
  (m.filter (fun p => decide (k ≤ p.1) && decide (p.1 < k + n))).map (fun p => (p.1 - k, p.2))

/-- A queue as it is saved (R202): the time that its head has waited, since the watchdogs stop (R336), but no trace of a
TWAIT that waits, which is tested for lateness anew on resume (R364), and no command buffer, which is fetched again. -/
def saveQueueSt (now : Nat) (s : QueueSt) : QueueSt :=
  { s with
    wait := (s.wait.filter (fun w => w.flags != [] || w.clamp.isSome)).map (fun w => { w with since := now - w.since })
    buf := [] }

/-- A queue as it is restored. -/
def restoreQueueSt (now : Nat) (s : QueueSt) : QueueSt :=
  { s with stopped := false, wait := s.wait.map (fun w => { w with since := now - w.since }) }

/-- Whether a glue-up holds a line of a range of HBM (R279). -/
def rangeHeld (d : Dev) (a n : Nat) : Bool :=
  d.glues.any (fun g => (g.phase == .committed || g.clamped) && g.marks.any (fun l => decide (a < l + 64) && decide (l < a + n)))

/-- A save or a restore of a range meets the marks of open glue-ups as a plain access does (R279). -/
def rangeAccess (a n : Nat) (d : Dev) : Dev :=
  { d with glues := d.glues.map (fun g =>
    if g.phase == .marking && !g.clamped && g.marks.any (fun l => decide (a < l + 64) && decide (l < a + n))
    then glueAbort d 1 g else g) }

/-- Lines of a range whose writes are lost: none where no channel is fenced or in test. -/
def rangeLost (d : Dev) (a n : Nat) : List Nat :=
  if d.hbmc.fenced == 0 && d.hbmc.testMode == 0 && decide (a + n ≤ hbmSpan d.hbmc) then []
  else (linesOf a n).filter (hbmLost d)

/-- A block of the save area written whole, with poison at the given lines. It passes the decks by, which keep no line of
it; the writes to a fenced channel are discarded, and counted (R248). -/
def bulkStore (a n : Nat) (es : Mem) (bad : List Nat) (d : Dev) : Dev :=
  let lost := rangeLost d a n
  let d := rangeAccess a n d
  let keep := fun (l : Nat) => lost != [] && lost.contains (lineOf l)
  let old := (memSlice d.hbm a n a).filter (fun p => keep p.1)
  let d := { d with
    deck := { d.deck with lines := d.deck.lines.filter (fun x => x.host || !(decide (a ≤ x.line) && decide (x.line < a + n))) }
    hbm := old.foldl (fun m p => mapPut 0 p.1 p.2 m) (memSplice d.hbm a n (es.filter (fun p => !keep p.1)))
    hbmPoison := (bad.filter (fun l => !keep l)).foldl (fun m l => mapPut false l true m)
      (d.hbmPoison.filter (fun p => decide (p.1 < a) || decide (a + n ≤ p.1) || keep p.1)) }
  lost.foldl (fun d l => discardWrite l d) d

/-- Saves a core's block: bench, joist rows with tags and vector registers as bytes of HBM, poison carried; the private
4 KiB of queue state as free bytes, its content kept beside (R335). -/
def saveCore (ctx i c : Nat) (d : Dev) : Dev :=
  let b := saveBlock (ctxAt d ctx) i
  let rows := mapSlice d.joist (c * 1024) 1024
  let fr := freeMem (b + saveQueue) 4096 d
  let d := fr.2
  let es := memSlice d.bench (benchKey c 0) benchSize b
    ++ rows.flatMap (fun r => memOf (b + saveJoist + 544 * r.1) (packRow r.2))
    ++ (mapSlice d.vx (c * 1024) 1024).flatMap (fun v => memOf (b + saveVx + 4 * v.1) (leBytes 4 v.2.toNat))
    ++ fr.1
  let bad := (mapSlice d.benchPoison (benchKey c 0 / 8) (2 ^ 18)).map (fun w => lineOf (b + 8 * w.1))
  let sc : SavedCore :=
    { queues := (List.range 4).map (fun q => saveQueueSt (nowNs d) (queueAt d c q))
      zstep := (coreAt d c).zstep
      rows := rows.filterMap (fun r =>
        if (r.2.mixed, r.2.shape, r.2.group) = (false, (0, 0), []) then none
        else some (r.1, (r.2.mixed, r.2.shape, r.2.group))) }
  bulkStore b saveCoreBytes es bad { d with saved := mapPut {} (ctx * 256 + c) sc d.saved }

/-- Poisoned lines of a range. -/
def poisonedLines (d : Dev) (a n : Nat) : List Nat :=
  if d.hbmPoison = [] && rangeLost d a n = [] && !d.deck.lines.any (fun x => !x.host && x.poison) then []
  else (linesOf a n).filter (linePoisoned d false)

/-- Restores a core's block. -/
def restoreCore (ctx i c : Nat) (d : Dev) : Dev :=
  let b := saveBlock (ctxAt d ctx) i
  let sc := mapGet {} d.saved (ctx * 256 + c)
  let bad := poisonedLines d b saveCoreBytes
  let words := (bad.filter (fun l => decide (l < b + benchSize))).flatMap
    (fun l => (List.range 8).map (fun i => benchKey c (l - b) / 8 + i))
  let row := fun (r : Nat) =>
    let a := b + saveJoist + 544 * r
    let x := mapGet (false, (0, 0), []) sc.rows r
    let y := parseRow (memRead d.hbm a 544)
    { y with mixed := x.1, shape := x.2.1, group := x.2.2,
             poison := y.poison || (bad != [] && (linesOf a 544).any (fun l => bad.contains l)) }
  let vxAt := fun (v : Nat) => BitVec.ofNat 32 (memLe d.hbm (b + saveVx + 4 * v) 4)
  let d := zeroVx c (zeroCore c (rangeAccess b saveCoreBytes d))
  let d := { d with
    bench := memSplice d.bench (benchKey c 0) benchSize (memSlice d.hbm b benchSize (benchKey c 0))
    benchPoison := words.foldl (fun m w => mapPut false w true m) d.benchPoison
    joist := (List.range 1024).foldl (fun m r => mapPut {} (c * 1024 + r) (row r) m) d.joist
    vx := (List.range 1024).foldl (fun m v => mapPut 0 (c * 1024 + v) (vxAt v) m) d.vx
    saved := mapPut {} (ctx * 256 + c) {} d.saved }
  let d := modCore c (fun k => { k with zstep := sc.zstep }) d
  (List.range 4).foldl (fun d q => modQueue c q (fun _ => restoreQueueSt (nowNs d) (sc.queues.getD q {})) d) d

/-! ### Becoming resident (R328, R329, R492) -/

/-- Whether a core can be given to a context now: free, in service, not being scanned, under no reset. -/
def coreFree (d : Dev) (c : Nat) : Bool :=
  let k := coreAt d c
  k.resident.isNone && !k.out
    && (match d.pier.scan with | some (s, _) => s != c | none => true)
    && !d.resets.any (fun j => (j.domain == 2 && j.unit.toNat == unitCore c) || (j.domain == 3 && j.unit.toNat == unitCluster (c / 8)))

/-- Whether waiting context `a` comes before `b` (R329): the higher level, and the older within a level. -/
def comesBefore (d : Dev) (a b : Nat) : Bool :=
  let x := ctxAt d a
  let y := ctxAt d b
  decide (y.prio < x.prio) || (x.prio == y.prio && (decide (x.since < y.since) || (x.since == y.since && decide (a < b))))

/-- Whether another waiting context that comes before this one wants a core of it. -/
def mustYield (d : Dev) (ctx : Nat) : Bool :=
  d.ctxs.any (fun p => p.1 != ctx && p.2.wants && (p.2.state == .idle || p.2.state == .saved)
    && (p.2.cores &&& (ctxAt d ctx).cores) != 0 && comesBefore d p.1 ctx)

/-- The first core of a context that is on the offline list. -/
def offlineCore (d : Dev) (ctx : Nat) : Option Nat :=
  (coresOf (ctxAt d ctx)).find? (fun c => d.run.sec.offline.getLsbD c)

/-- A core passes to a context: bench, joist memory and vector registers are zeroed unless it was the last owner (R232);
a context starts with CTX.ZHV_STEP (R138). -/
def giveCore (ctx : Nat) (d : Dev) (c : Nat) : Dev :=
  let d := if (coreAt d c).lastOwner = some ctx then d else zeroVx c (zeroCore c d)
  let d := { d with queues := mapClear (4 * c) 4 d.queues, shadow := mapClear (c * 24576) 24576 d.shadow }
  modCore c (fun k => { k with resident := some ctx, lastOwner := some ctx, zstep := (ctxAt d ctx).step }) d

/-- The record in HBM of a context that becomes resident is read at its home decks: none while a glue-up holds it or, of a
saved context, a line of its save area; the address where it is poisoned (R245, R279). -/
def ctxRecRead (ctx : Nat) (d : Dev) : Option (Option Nat × Dev) :=
  let x := ctxAt d ctx
  let a := ctxRecAddr d ctx
  let n := saveCtxBytes + saveCoreBytes * (coresOf x).length
  if accessHeld d false a 256 || (x.state == .saved && rangeHeld d x.saveBase n) then none
  else some (firstPoison d false a 256, deckRead false a 256 d)

/-- A context that waits takes its cores if all are free, and its queues and channels go on. One whose set holds an
offline core faults instead (R492), and one whose record is poisoned consumes the poison (R245). -/
def reside (ctx : Nat) (d : Dev) : Dev :=
  let x := ctxAt d ctx
  if !x.wants || !(x.state == .idle || x.state == .saved) then d
  else
    match offlineCore d ctx with
    | some c => faultCtx ctx { cls := coreOffline, unit := unitCore c } d
    | none =>
      let cs := coresOf x
      if !cs.all (coreFree d) || mustYield d ctx then d
      else
        match ctxRecRead ctx d with
        | none => d
        | some (some a, d) => faultCtx ctx { cls := poisonCls, unit := unitHost, addr := a } d
        | some (none, d) =>
        let d := cs.foldl (giveCore ctx) d
        let d := if x.state = .saved then
            (cs.zip (List.range cs.length)).foldl (fun d p => restoreCore ctx p.2 p.1 d) d
          else d
        let d := { d with chans := d.chans.map (fun p => (p.1, if p.2.owner = some ctx then { p.2 with stopped := false } else p.2)) }
        setCtxState ctx .resident (modCtx ctx (fun x => { x with wants := false, ran := false }) d)

/-- Waiting contexts take cores that are free, in the order of R329. -/
def resideAll (d : Dev) : Dev := d.ctxs.foldl (fun d p => reside p.1 d) d

/-! ### Leaving the cores (R334) -/

/-- The gauge counts of one command reach their slots, or its consumption of a poisoned slot faults the context; none while
a glue-up holds a slot. -/
def flushShares (u ctx unit : Nat) (tag : BitVec 32) (gs : List GaugeDelta) (d : Option Dev) : Option Dev :=
  match d with
  | none => none
  | some d =>
    match gaugeFlushAll u ctx gs d with
    | .ok d => some d
    | .error (.err e) => some (faultCtx ctx { cls := e.cls, unit := unit, tag := tag, addr := e.addr } d)
    | .error _ => none

/-- Gauge counts of the interrupted commands of a core flush (R148). -/
def flushGauges (ctx : Nat) (d : Option Dev) (c : Nat) : Option Dev :=
  (List.range 4).foldl (fun d q =>
    match d with
    | none => none
    | some d =>
      ((queueAt d c q).inflight.foldl (fun d f => flushShares (c / 8) ctx (unitQueue c q) f.tag f.gauge d) (some d)).map
        (modQueue c q (fun s => { s with inflight := s.inflight.map (fun f => { f with gauge := [] }) }))) d

/-- Counts of committed panels that the Planers hold for a context flush. -/
def flushPlaners (ctx : Nat) (d : Dev) : Option Dev :=
  d.planers.foldl (fun d p =>
    let clear := fun (l : List PlanerJob) => l.map (fun j => if j.ctx == ctx then { j with gauge := [] } else j)
    ((p.2.filter (fun j => j.ctx == ctx)).foldl (fun d j => flushShares p.1 ctx (unitPlaner p.1) j.tag j.gauge d) d).map
      (fun d => { d with planers := mapMod [] p.1 clear d.planers })) (some d)

/-- The 64 KiB context block of the save area holds free bytes: its layout is private; Planer progress, channel state and
open posts stay where the module keeps them. -/
def saveCtxBlock (ctx : Nat) (d : Dev) : Dev :=
  let b := (ctxAt d ctx).saveBase
  let fr := freeMem b saveCtxBytes d
  bulkStore b saveCtxBytes fr.1 [] fr.2

/-- A context leaves its cores with its state saved; none while a glue-up holds a gauge slot or a line of the save area. -/
def leaveCores (ctx : Nat) (d : Dev) : Option Dev :=
  let cs := coresOf (ctxAt d ctx)
  if rangeHeld d (ctxAt d ctx).saveBase (saveCtxBytes + saveCoreBytes * cs.length) then none
  else
    (cs.foldl (flushGauges ctx) (flushPlaners ctx d)).map (fun d =>
      if (ctxAt d ctx).state ≠ .draining then d
      else
        let d := saveCtxBlock ctx d
        let d := (cs.zip (List.range cs.length)).foldl (fun d p => saveCore ctx p.2 p.1 d) d
        let d := cs.foldl (fun d c => modCore c (fun k => { k with resident := none }) d) d
        setCtxState ctx .saved d)

/-! ### Stopping for a switch (R334 steps 1 and 2) -/

/-- Open glue-ups of a context's queues and Planers that have not reached the commit point abort and rerun on resume
(R285): the commands of an S queue's are taken back, and the queue stands at GLUE_BEGIN again, whose waits have been met;
a Planer's panel begins anew. -/
def switchGlues (ctx : Nat) (d : Dev) : Dev :=
  (d.glues.filter (fun g => g.ctx == ctx && g.phase != .committed && decide (g.id < 640))).foldl (fun d g =>
    let d := endGlue g.id d
    if g.id % 4 = 3 then
      modQueue g.core 3 (fun s => { s with
        inflight := s.inflight.filter (fun f => !f.glue), pc := g.pc, loops := g.loops, buf := [], glueLast := 5
        wait := none }) d
    else
      let anew := fun (p : PlanerJob) => if p.core == g.core && p.ctx == ctx then { p with mask := none } else p
      { d with planers := mapMod [] (g.core / 8) (List.map anew) d.planers }) d

/-- A resident context begins to drain: queues stop issuing, channels stop, open glue-ups abort (R285, R305). -/
def drainCtx (ctx : Nat) (d : Dev) : Dev :=
  let d := (coresOf (ctxAt d ctx)).foldl (fun d c =>
    (List.range 4).foldl (fun d q => if (queueAt d c q).running then modQueue c q (fun s => { s with stopped := true }) d else d) d) d
  let d := { d with chans := d.chans.map (fun p => (p.1, if p.2.owner = some ctx then { p.2 with stopped := true } else p.2)) }
  setCtxState ctx .draining (switchGlues ctx d)

/-- A switch begins: at most one is under way. -/
def switchBegin (out : Nat) (inn : Option Nat) (seqNo : Option (BitVec 32)) (d : Dev) : Dev :=
  drainCtx out { d with hostp := { d.hostp with switch := some { out := some out, inn := inn, seqNo := seqNo } } }

end Sys2Proof.Machine
end

