-- ==== Sys2Proof/Machine/Scans.lean ====
section
/-!
DEFINITION. Field scans (19 R491 to R496), and the end of a reset (R500): both can leave a core free for a context that
waits.
-/

namespace Sys2Proof.Machine

def execResetDone (unit : BitVec 16) (s : State) : Host.Outcome State Fault Refusal :=
  onDev (unitKnown unit.toNat) (fun d => resideAll (resetEnds unit.toNat d)) s

/-! ### Field scans (R491 to R496) -/

/-- Whether a core holds a started launch. -/
def coreHoldsLaunch (d : Dev) (c : Nat) : Bool :=
  d.ctxs.any (fun x => x.2.launches.any (fun l => l.begun && l.left.any (fun k => k / 4 == c)))

/-- SUSPECT_CORE_SCAN: the pier scans a suspect core, or at start-up a core of the offline list (R491, R492). One core
is scanned at a time. -/
def suspectScan (c : Nat) (d : Dev) : Dev :=
  let core := coreAt d c
  if d.pier.scan.isSome || !(core.out || (d.run.sec.offline.getLsbD c && fabricOn d)) then d
  else { d with pier := { d.pier with scan := some (c, false) } }

def execSuspectCoreScan (core : Nat) (s : State) : Host.Outcome State Fault Refusal :=
  onDev (coreKnown core) (suspectScan core) s

/-- A scan overwrites the bench and the joist rows of a core (R493); the block of a resident context is saved to its save
area and restored (R494). -/
def scanWrites (c : Nat) (d : Dev) : Dev :=
  let wiped := fun d => zeroVx c (zeroCore c d)
  match (coreAt d c).resident with
  | some x =>
    let i := ((coresOf (ctxAt d x)).findIdx? (fun k => k == c)).getD 0
    restoreCore x i c (wiped (saveCore x i c d))
  | none => modCore c (fun x => { x with lastOwner := none }) (wiped d)

/-- A core passes its scan. -/
def scanPassed (c : Nat) (d : Dev) : Dev :=
  let back := (coreAt d c).out || d.run.sec.offline.getLsbD c
  let d := scanWrites c { d with pier := { d.pier with scanTimes := mapPut 0 c d.kt.now d.pier.scanTimes } }
  let d := if d.run.sec.offline.getLsbD c then
      saveSection (fun s => { s with offline := s.offline &&& ~~~(BitVec.twoPow 160 c) }) d
    else d
  if back then raise coreOffline (unitCore c) none 0 0 (modCore c (fun x => { x with out := false }) d) else d

/-- A core fails its scan: SCAN_FAIL with the time of its last pass and the failing pattern, the offline list, and a
resident context faults, since it cannot be resident on an absent core (R328, R492, R496). -/
def scanFailed (c : Nat) (pattern : BitVec 32) (d : Dev) : Dev :=
  let d := scanWrites c d
  let last := mapGet 0 d.pier.scanTimes c / 65536
  let d := raise scanFail (unitCore c) none 0 (packFields [(last, 64), (pattern.toNat, 32)]) d
  let d := if d.run.sec.offline.getLsbD c then d
    else saveSection (fun s => { s with offline := s.offline ||| BitVec.twoPow 160 c }) d
  let d := raise coreOffline (unitCore c) none 0 0 d
  let d := match (coreAt d c).resident with
    | some x => faultCtx x { cls := coreOffline, unit := unitCore c } d
    | none => d
  modCore c (fun x => { x with out := false, resident := none }) d

/-- Whether a glue-up holds a line of the save area that a scanned core's block passes through (R279). -/
def scanHeld (d : Dev) (c : Nat) : Bool :=
  match (coreAt d c).resident with
  | some x => rangeHeld d (ctxAt d x).saveBase (saveCtxBytes + saveCoreBytes * (coresOf (ctxAt d x)).length)
  | none => false

/-- SCAN_DONE: the scan ends, once the core has held no started launch and its save area is free. -/
def scanEnds (pass : Bool) (pattern : BitVec 32) (d : Dev) : Dev :=
  match d.pier.scan with
  | none => d
  | some (c, host) =>
    if coreHoldsLaunch d c || scanHeld d c then d
    else
      let d := if pass then scanPassed c d else scanFailed c pattern d
      resideAll { d with pier := { d.pier with
        scan := none
        busy := if host && !pass then d.pier.busy.map (fun b => (b.1, 4, b.2.2)) else d.pier.busy } }

def execScanDone (pass : Bool) (pattern : BitVec 32) (s : State) : Host.Outcome State Fault Refusal :=
  onDev true (scanEnds pass pattern) s

end Sys2Proof.Machine
end

