-- ==== Sys2Proof/Machine/HostDesc.lean ====
section
/-!
DEFINITION. The descriptors of a context's ring (17 R435 to R444), submission groups (R441, R442, 11 R287) and the launch
of queues (08 R176, 14 R361, 17 R439).
-/

namespace Sys2Proof.Machine

/-! ### What a member does -/

/-- What starting a descriptor gives: its effect, the code that refuses it, or a wait for a line that a glue-up holds. -/
inductive Took where
  | ok (d : Dev)
  | err (code : Nat)
  | wait

/-- The class of a failure. -/
def stopCode : Stop → Nat
  | .err e => e.cls
  | _ => 0

/-- The valid flags of a FLAG_SET or FLAG_CLR. -/
def flagFields (x : Desc) : List Nat :=
  (List.range 8).filterMap (fun i =>
    let f := bitsOf x.word (79 + 16 * i) (64 + 16 * i)
    if bitOf f 15 then some (f % 2 ^ 14) else none)

/-- FLAG_SET and FLAG_CLR: every flag translates, or none changes. -/
def takeFlags (set : Bool) (ctx : Nat) (x : Desc) (d : Dev) : Took :=
  match flagXlAll d 20 ctx (flagFields x) with
  | .error .wait => .wait
  | .error e => .err (stopCode e)
  | .ok ks =>
    let d := (flagFields x).foldl (flagVisit 20 ctx) d
    .ok (ks.foldl (fun d k => if set then flagSetKey k none d else flagClearKey k d) d)

/-- The table entry of a virtual flag takes a value, and no cache holds the old one (R315). -/
def putFlagEntry (ctx v e : Nat) (d : Dev) : Dev :=
  let pa := flagEntryAddr d ctx v
  flagForget ctx v (writeMem false pa (leBytes 4 e) (plainAccess [lineOf pa] d))

/-- FLAG_MAP (R315). -/
def takeMap (ctx : Nat) (x : Desc) (d : Dev) : Took :=
  let v := bitsOf x.word 77 64
  let e := bitsOf x.word 127 96
  let pa := flagEntryAddr d ctx v
  if (ctxAt d ctx).flagCount ≤ v ∨ !fltValid e ∨ bitsOf e 21 17 ≠ 0 ∨ 20 ≤ fltCluster e then .err hostField
  else if lineHeld d (lineOf pa) then .wait
  else if linePoisoned d false (lineOf pa) then .err poisonCls
  else if fltValid (readMemLe d false pa 4) then .err flagBusy
  else
    let k := fltKey e
    let p := pflagAt d k
    if p.tomb then .err flagBusy
    else if p.mapped then .err flagOwner
    else
      .ok (modPflag k (fun p => { p with
        mapped := true, owner := ctx, value := false, gen := BitVec.ofNat 8 (fltGen e), remote := fltRemote e })
        (putFlagEntry ctx v e d))

/-- Clears the table entry of a virtual flag and tombstones its physical flag (R315). -/
def unmapFlag (ctx v : Nat) (d : Dev) : Dev :=
  let e := readMemLe d false (flagEntryAddr d ctx v) 4
  let p := pflagAt d (fltKey e)
  let d := if fltValid e && p.mapped && p.owner == ctx then flagTombKey (fltKey e) d else d
  putFlagEntry ctx v (e % 2 ^ 31) d

/-- FLAG_UNMAP. -/
def takeUnmap (ctx : Nat) (x : Desc) (d : Dev) : Took :=
  let v := bitsOf x.word 77 64
  let line := lineOf (flagEntryAddr d ctx v)
  if (ctxAt d ctx).flagCount ≤ v then .err hostField
  else if lineHeld d line then .wait
  else if linePoisoned d false line then .err poisonCls
  else .ok (unmapFlag ctx v d)

/-- A failed mint's record carries the submission's sequence number (R207). -/
def hostMintRecord (ctx : Nat) (x : Desc) (code : Nat) (d : Dev) : Dev :=
  raiseRec { cls := code, kind := 1, ctx := some ctx, unit := unitHost, tag := x.seqNo, addr := bitsOf x.word 79 64 } d

/-- The mint image, or why it cannot be read (R444). -/
def mintImage (x : Desc) (d : Dev) : Except Nat (List Byte) :=
  let a := bitsOf x.word 175 128
  if !aligned 64 a ∨ 2 ^ 48 < a + 192 then .error hostField
  else if (firstPoison d true a 192).isSome then .error hostMem
  else .ok (readMem d true a 192)

/-- The HOST_MEM record of an image read that fails (R257). -/
def imageRecord (a n : Nat) (d : Dev) : Dev := hostReadRec (firstPoison d true a n) d

/-- DESC_MINT (R207): a failed mint clears DESC.VALID outside a group, and does nothing inside. -/
def takeMint (inGroup : Bool) (ctx : Nat) (x : Desc) (d : Dev) : Took × Dev :=
  let h := bitsOf x.word 79 64
  match mintImage x d with
  | .error code => (.err code, if code = hostMem then imageRecord (bitsOf x.word 175 128) 192 d else d)
  | .ok img =>
    match mintAt ctx h img d with
    | .error _ => (.wait, d)
    | .ok (0, d') => (.ok d', d)
    | .ok (code, d') => (.err code, hostMintRecord ctx x code (if inGroup then d else d'))

/-- WRITE64: the selected bytes of eight at the line's home deck; in a group the line must be an HBM line that holds no
poison (R246, R274). -/
def takeWrite (inGroup : Bool) (ctx : Nat) (x : Desc) (d : Dev) : Took :=
  let va := bitsOf x.word 111 64
  let data := bitsOf x.word 191 128
  let mask := bitsOf x.word 199 192
  if !aligned 8 va then .err hostField
  else
    match xlate 20 ctx true va d with
    | .error .wait => .wait
    | .error e => .err (stopCode e)
    | .ok (host, pa, _, d) =>
      let off := pa % 64
      if inGroup && host then .err glueSpace
      else if accessHeld d host pa 8 then .wait
      else if inGroup && linePoisoned d false (lineOf pa) then .err poisonCls
      else if mask = 0 then .ok d
      else
        let d := if host then kzHostReads ctx (partFills d pa 8) d else plainAccess [lineOf pa] d
        .ok (deckStore host (lineOf pa) (BitVec.ofNat 512 (data * 256 ^ off)) (BitVec.ofNat 64 (mask * 2 ^ off)) d)

/-- A member's own checks and effect, and the state that a refusal leaves (R442, R444). -/
def takeMember (inGroup : Bool) (ctx : Nat) (x : Desc) (d : Dev) : Took × Dev :=
  if descBad x then (.err hostField, d)
  else if x.kind = kNop then (.ok d, d)
  else if x.kind = kFlagSet then (takeFlags true ctx x d, d)
  else if x.kind = kFlagClr then (takeFlags false ctx x d, d)
  else if x.kind = kFlagMap then (takeMap ctx x d, d)
  else if x.kind = kFlagUnmap then (takeUnmap ctx x d, d)
  else if x.kind = kDescMint then takeMint inGroup ctx x d
  else if x.kind = kWrite64 then (takeWrite inGroup ctx x d, d)
  else (if aligned 64 (bitsOf x.word 111 64) then .ok d else .err hostField, d)

/-! ### Starting a descriptor (R435) -/

/-- The front descriptor of a ring, if it is alone, of the kind, and may start now. -/
def startable (ring kind : Nat) (d : Dev) : Option Desc :=
  match (ringAt d ring).taken with
  | x :: _ => if x.group = 0 && x.kind == kind && !(x.fence && ringBusy d ring) then some x else none
  | [] => none

/-- Starts the front descriptor of a kind that completes at once. -/
def startSimple (kind ring : Nat) (d : Dev) : Dev :=
  match startable ring kind d with
  | none => d
  | some x =>
    let ctx := (ringCtx ring).getD 0
    match takeMember false ctx x d with
    | (.wait, _) => d
    | (.err code, d) => settleRing ring (complete ring x code 0 (popTaken ring 1 d))
    | (.ok d, _) => settleRing ring (complete ring x 0 0 (popTaken ring 1 d))

def execNopDescriptor (ring : Nat) (s : State) : Host.Outcome State Fault Refusal :=
  onDev (ringKnown ring) (startSimple kNop ring) s

def execFlagSet (ring : Nat) (s : State) : Host.Outcome State Fault Refusal :=
  onDev (ringKnown ring) (startSimple kFlagSet ring) s

def execFlagClr (ring : Nat) (s : State) : Host.Outcome State Fault Refusal :=
  onDev (ringKnown ring) (startSimple kFlagClr ring) s

def execFlagMap (ring : Nat) (s : State) : Host.Outcome State Fault Refusal :=
  onDev (ringKnown ring) (startSimple kFlagMap ring) s

def execFlagUnmap (ring : Nat) (s : State) : Host.Outcome State Fault Refusal :=
  onDev (ringKnown ring) (startSimple kFlagUnmap ring) s

def execDescMint (ring : Nat) (s : State) : Host.Outcome State Fault Refusal :=
  onDev (ringKnown ring) (startSimple kDescMint ring) s

def execWrite64 (ring : Nat) (s : State) : Host.Outcome State Fault Refusal :=
  onDev (ringKnown ring) (startSimple kWrite64 ring) s

/-! ### FLAG_WAIT (R435, R438) -/

/-- Long descriptors of a ring not yet completed. -/
def longCount (d : Dev) (ring : Nat) : Nat := (ringAt d ring).waiting.length + ringLaunches d ring

/-- A FLAG_WAIT looks at its flag: the code with which it completes, if it does. -/
def lookWait (ctx : Nat) (x : Desc) (d : Dev) : Option (Nat × Dev) :=
  let v := bitsOf x.word 77 64
  match flagXl d 20 ctx v with
  | .error .wait => none
  | .error e => some (stopCode e, d)
  | .ok k =>
    if (pflagAt d k).value then some (0, (if bitOf x.word 80 then flagClearKey k else id) (flagVisit 20 ctx d v)) else none

/-- The waiting FLAG_WAITs of a ring look again, oldest first. -/
def lookAll (ring ctx : Nat) (d : Dev) : Dev :=
  (ringAt d ring).waiting.foldl (fun d x =>
    match lookWait ctx x d with
    | some (code, d) =>
      complete ring x code 0 (modRing ring (fun r => { r with waiting := r.waiting.erase x }) d)
    | none => d) d

/-- FLAG_WAIT: those that wait look again, and the front one starts if fewer than 64 long descriptors are open. -/
def flagWaitStart (ring : Nat) (d : Dev) : Dev :=
  let ctx := (ringCtx ring).getD 0
  let d := lookAll ring ctx d
  match startable ring kFlagWait d with
  | none => settleRing ring d
  | some x =>
    if descBad x then settleRing ring (complete ring x hostField 0 (popTaken ring 1 d))
    else if 64 ≤ longCount d ring then d
    else
      match lookWait ctx x d with
      | some (code, d) => settleRing ring (complete ring x code 0 (popTaken ring 1 d))
      | none => settleRing ring (modRing ring (fun r => { r with waiting := r.waiting ++ [x] }) (popTaken ring 1 d))

def execFlagWait (ring : Nat) (s : State) : Host.Outcome State Fault Refusal :=
  onDev (ringKnown ring) (flagWaitStart ring) s

/-! ### XLATE_FLUSH (R333) -/

/-- No cache holds an entry of the range. -/
def flushRange (ctx lo len : Nat) (d : Dev) : Dev :=
  let hi := lo + len
  { d with xcache := d.xcache.filter (fun e =>
    !(e.ctx == ctx && decide (e.page * 65536 < hi) && decide (lo < e.page * 65536 + 65536))) }

def flushStart (ring : Nat) (d : Dev) : Dev :=
  match startable ring kXlateFlush d with
  | none => d
  | some x =>
    let lo := bitsOf x.word 111 64
    let len := bitsOf x.word 191 128
    let bad := descBad x || decide (2 ^ 48 < lo + len)
    let d := if bad then d else flushRange ((ringCtx ring).getD 0) lo len d
    settleRing ring (complete ring x (if bad then hostField else 0) 0 (popTaken ring 1 d))

def execXlateFlush (ring : Nat) (s : State) : Host.Outcome State Fault Refusal :=
  onDev (ringKnown ring) (flushStart ring) s

/-! ### LAUNCH (R176, R361, R439) -/

/-- The launch table of a context: 32 bytes a core, and its started queues with their entry addresses. -/
def launchEntries (cores : List Nat) (tab : List Byte) : List (Nat × Nat) :=
  (cores.zip (List.range cores.length)).flatMap (fun c =>
    (List.range 4).filterMap (fun q =>
      let w := leAt tab (32 * c.2 + 8 * q) 8
      if w % 2 = 1 then some (4 * c.1 + q, bitsOf w 47 6 * 64) else none))

/-- A LAUNCH starts: its table is read once, and it waits for its time and for its context (R328, R439). A failed table
read completes it with its code, and a context that has faulted with the fault's code. -/
def startLaunch (ring ctx : Nat) (x : Desc) (d : Dev) : Took :=
  let c := ctxAt d ctx
  let va := bitsOf x.word 111 64
  let done := fun (code : Nat) (d : Dev) => Took.ok (complete ring x code 0 d)
  if c.state = .free then done ctxStateErr d
  else if c.state = .faulted then done c.faultCode d
  else if 8 ≤ c.launches.length then .wait
  else
    let cores := coresOf c
    match vRead 20 ctx va (32 * cores.length) d with
    | .error .wait => .wait
    | .error e => done (stopCode e) d
    | .ok (tab, po, d) =>
      if po then done hostMem d
      else
        let es := launchEntries cores tab
        let t := bitsOf x.word 191 128 * 65536 + bitsOf x.word 207 192
        let l : Launch :=
          { seqNo := x.seqNo, ring := ring, start := if bitOf x.word 208 then some t else none, takenAt := nowNs d,
            entries := es, left := es.map (·.1), table := tab }
        .ok (reside ctx (modCtx ctx (fun c => { c with
          launches := c.launches ++ [l]
          wants := c.wants || c.state != .resident
          since := if c.wants || c.state == .resident then c.since else nowNs d }) d))

def launchRow (ring : Nat) (d : Dev) : Dev :=
  match startable ring kLaunch d with
  | none => d
  | some x =>
    let ctx := (ringCtx ring).getD 0
    let fin := fun d => settleRing ring (popTaken ring 1 d)
    if descBad x ∨ !aligned 64 (bitsOf x.word 111 64) then fin (complete ring x hostField 0 d)
    else if 64 ≤ longCount d ring then d
    else
      match startLaunch ring ctx x d with
      | .ok d => fin d
      | _ => d

def execLaunch (ring : Nat) (s : State) : Host.Outcome State Fault Refusal :=
  onDev (ringKnown ring) (launchRow ring) s

/-- A queue of a launch starts: its stream begins at its entry address. What queues of the core have finished is ordered
before it (R436). -/
def startQueue (d : Dev) (l : Launch) (t0 : Nat) (e : Nat × Nat) : Dev :=
  let core := e.1 / 4
  let at_ := fun p => queueAt d core p
  let idle := (List.range 4).all (fun p => !(at_ p).running)
  let d := if idle then { d with shadow := mapClear (core * 24576) 24576 d.shadow } else d
  let vc := (List.range 4).map (fun p => if (at_ p).running then (at_ (e.1 % 4)).vc.getD p 0 else (at_ p).place)
  modQueue core (e.1 % 4) (fun s => { s with
    running := true, stopped := false, pc := e.2, buf := [], loops := [], wait := none, clampNo := [0, 0, 0, 0, 0, 0, 0, 0]
    vc := vc, launchSeq := l.seqNo, launchT := t0, glueLast := 0 }) d

/-- Whether a launch may issue: its context resident, its time come, no core of it held for a field scan (R328, R361,
R494). -/
def launchReady (d : Dev) (ctx : Nat) (l : Launch) : Bool :=
  (ctxAt d ctx).state == .resident
    && (match l.start with | some t => decide (t ≤ d.kt.now) | none => true)
    && (match d.pier.scan with
        | some (c, _) => coreHoldsLaunch d c || !l.entries.any (fun e => e.1 / 4 == c)
        | none => true)

/-- A launch that has come after its time, or whose first issue does, is late (R361). -/
def launchLate (d : Dev) (l : Launch) : Bool :=
  match l.start with
  | some t => decide (t < l.takenAt * 65536) || decide (t + 2 * 65536 ≤ d.kt.now)
  | none => false

/-- A launch some of whose queues begin now, or that names none: the first time fixes its keystone time, T or the time of
its first issue; a queue that begins after T makes it late (R361). -/
def launchMark (d : Dev) (l : Launch) : Launch :=
  { l with begun := true, late := l.late || launchLate d l, first := if l.begun then l.first else d.kt.now }

/-- KT.LATE_LAUNCHES counts a launch that has become late, and the first issue is captured (R361, R515). -/
def launchNote (ctx : Nat) (l l' : Launch) (d : Dev) : Dev :=
  let d := if l'.late && !l.late then
      { d with kt := { d.kt with lateLaunches := min (d.kt.lateLaunches + 1) (2 ^ 32 - 1) } }
    else d
  if l.begun then d
  else kzFor 3 ctx l.seqNo.toNat ((l.left.map (· / 4)).eraseDups).length (sm3Bytes l.table) d

/-- LAUNCH_START: the queues of a launch issue. A queue that an earlier launch still runs starts after its QEND. With
no queue named, the launch completes. -/
def launchBegin (ctx : Nat) (seqNo : BitVec 32) (d : Dev) : Dev :=
  let x := ctxAt d ctx
  match x.launches.find? (fun l => l.seqNo == seqNo && (!l.begun || l.entries != [])) with
  | none => d
  | some l =>
    if !l.begun && !launchReady d ctx l || x.state != .resident then d
    else
      let before := x.launches.takeWhile (fun m => m != l)
      let free := fun (e : Nat × Nat) => !(queueAt d (e.1 / 4) (e.1 % 4)).running
        && !before.any (fun m => m.left.contains e.1)
      let now := l.entries.filter free
      if now = [] && l.entries != [] then d
      else
      let l' := { launchMark d l with entries := l.entries.filter (fun e => !free e) }
      let d := now.foldl (fun d e => startQueue d l (l.start.getD l'.first) e) d
      let d := modCtx ctx (fun x => { x with launches := x.launches.map (fun m => if m == l then l' else m) }) d
      let d := launchNote ctx l l' d
      if l.left = [] then
        pushComp l.ring (launchComp l' 0)
          (modCtx ctx (fun x => { x with launches := x.launches.filter (fun m => m != l'), ran := true }) d)
      else d

def execLaunchStart (ctx : Nat) (seq : BitVec 32) (s : State) : Host.Outcome State Fault Refusal :=
  onDev (decide (ctx < 4096)) (launchBegin ctx seq) s

/-! ### Submission groups (R441, R442) -/

/-- The group at the front of the taken descriptors, up to the next with SD.GROUP = 3: its members and whether its form
is good, each between the ends at SD.GROUP = 2 and 16 members at the most; none while its last member has not been
written, which makes the module wait for its host (R441, R449). -/
def gatherGroup : Nat → List Desc → List Desc → Option (List Desc × Bool)
  | 0, _, _ => none
  | _, _, [] => none
  | fuel + 1, got, x :: rest =>
    let all := got ++ [x]
    if got = [] ∨ x.group ≠ 3 then gatherGroup fuel all rest
    else some (all, decide (all.length ≤ 16) && got.tail.all (fun y => y.group == 2))

/-- Lines and actions of a member (R441); none for a kind that no group holds. -/
def memberCost (x : Desc) : Option (Nat × Nat) :=
  if x.kind = kNop then some (0, 0)
  else if x.kind = kFlagSet ∨ x.kind = kFlagClr then some (0, (flagFields x).length)
  else if x.kind = kFlagMap ∨ x.kind = kFlagUnmap ∨ x.kind = kWrite64 then some (1, 1)
  else if x.kind = kDescMint then some (3, 3)
  else if x.kind = kLaunch then some (0, 1)
  else none

/-- Why a group fails before its glue-up begins. -/
def groupError (ring : Nat) (xs : List Desc) (good : Bool) : Nat :=
  let costs := xs.filterMap memberCost
  if !good || costs.length != xs.length || ring == adminRing && xs.any (fun x => x.kind != kNop) then glueBody
  else if 16 < (costs.map (·.1)).sum ∨ 64 < (costs.map (·.2)).sum then glueLimit
  else 0

/-- The members in order over one state: the codes, the last state, and the state that refusals leave; none while a line
is held. -/
def runMembers (ctx : Nat) : List Desc → Dev → Dev → List Nat → Option (List Nat × Dev × Dev)
  | [], d, base, codes => some (codes, d, base)
  | x :: xs, d, base, codes =>
    let r := takeMember true ctx x d
    match r.1 with
    | .wait => none
    | .ok d' => runMembers ctx xs d' base (codes ++ [0])
    | .err c =>
      let base' := { base with err := { base.err with
        raised := base.err.raised ++ r.2.err.raised.drop d.err.raised.length } }
      runMembers ctx xs d base' (codes ++ [c])

/-- The record of a group that fails with a GLUE class (R289). -/
def groupRecord (ring code : Nat) (x : Desc) (d : Dev) : Dev :=
  raiseRec { cls := code, kind := 1, ctx := ringCtx ring, unit := unitHost, tag := x.seqNo } d

/-- The SUBMIT records of a group's members, written as it commits or aborts, in ring order (R515). -/
def groupCapture (ring : Nat) (xs : List Desc) (d : Dev) : Dev :=
  let x := ringAt d ring
  let first := x.sqHead - BitVec.ofNat 32 x.taken.length
  (xs.zip (List.range xs.length)).foldl (fun d y => kzSubmit ring (first + BitVec.ofNat 32 (y.2 + 1)) y.1 d) d

/-- The launches of a committed group start; one that finds eight open waits at its start (R439). -/
def startLaunches (ring ctx : Nat) : List Desc → Dev → Dev
  | [], d => d
  | x :: xs, d =>
    match startLaunch ring ctx x d with
    | .ok d => startLaunches ring ctx xs d
    | _ => modRing ring (fun r => { r with taken := (x :: xs).map (fun x => { x with group := 0, fence := false }) ++ r.taken }) d

/-! ### The glue-up of a group (R275, R279, R281, R283, R287)

The marks, the apply and the release come about inside one SUBMISSION_GROUP. A counted abort leaves the glue-up open, in
backoff or waiting to run clamped, among the module's open glue-ups. -/

/-- The number of the glue-up that the host port opens for the group of a ring. -/
def hostGlue (ring : Nat) : Nat := 640 + ring

/-- The lines that a member changes (R441); none while one that its translation reads is held. A member that cannot name
its line marks none and fails by its own checks. -/
def memberLines (ctx : Nat) (x : Desc) (d : Dev) : Option (List Nat) :=
  if x.kind = kFlagMap ∨ x.kind = kFlagUnmap then
    let v := bitsOf x.word 77 64
    some (if v < (ctxAt d ctx).flagCount then [lineOf (flagEntryAddr d ctx v)] else [])
  else if x.kind = kDescMint then
    let h := bitsOf x.word 79 64
    some (if h < (ctxAt d ctx).descCount then linesOf (descEntry d ctx h) 192 else [])
  else if x.kind = kWrite64 then
    match xlate 20 ctx true (bitsOf x.word 111 64) d with
    | .ok (false, pa, _) => some [lineOf pa]
    | .error .wait => none
    | _ => some []
  else some []

/-- The lines of a group. -/
def groupLines (ctx : Nat) (d : Dev) : List Desc → Option (List Nat)
  | [] => some []
  | x :: xs =>
    match memberLines ctx x d, groupLines ctx d xs with
    | some a, some b => some (a ++ b)
    | _, _ => none

/-- The glue-up of a ring's group, or a new one. Cluster 0 coordinates it. -/
def groupGlue (ring : Nat) (d : Dev) : Glue :=
  (glueAt d (hostGlue ring)).getD { id := hostGlue ring, core := 0, ctx := ring, commitIssued := true }

/-- Whether a group's glue-up may start, one of at most four (R275), or retry now. -/
def groupReady (d : Dev) (ring : Nat) : Bool :=
  match glueAt d (hostGlue ring) with
  | none => decide ((d.glues.filter (fun g => decide (640 ≤ g.id))).length < 4)
  | some g => if g.phase == .waitClamp then clampTurn d g else decide (g.retryAt ≤ nowNs d)

/-- A group that takes no effect: its members complete with their own codes and the others with HOST_GROUP, and the outcome
`glue` (R442, R443). -/
def groupFails (ring glue : Nat) (xs : List Desc) (codes : List Nat) (d : Dev) : Dev :=
  (xs.zip codes).foldl (fun d y => complete ring y.1 (if y.2 = 0 then hostGroup else y.2) glue d)
    (settleRing ring (popTaken ring xs.length (groupCapture ring xs (endGlue (hostGlue ring) d))))

/-- A group whose lines are all taken: every member takes effect, or none (R442). Its launches start after the commit. -/
def groupCommit (ring : Nat) (xs : List Desc) (d0 d : Dev) : Dev :=
  let ctx := (ringCtx ring).getD 0
  match runMembers ctx xs d d [] with
  | none => d0
  | some (codes, d', base) =>
    if codes.all (· == 0) then
      let d := settleRing ring (popTaken ring xs.length (groupCapture ring xs (endGlue (hostGlue ring) d')))
      let d := (xs.filter (fun x => x.kind != kLaunch)).foldl (fun d x => complete ring x 0 0 d) d
      startLaunches ring ctx (xs.filter (fun x => x.kind == kLaunch)) d
    else
      let base := match codes.find? (· == glueSpace) with
        | some c => groupRecord ring c (xs.headD {}) base
        | none => base
      groupFails ring (if codes.contains poisonCls then 7 else 9) xs codes base

/-- An attempt at a group (R287). Where a deck cannot apply, its glue-up aborts with ERROR (R280). -/
def groupTry (ring : Nat) (xs : List Desc) (d : Dev) : Dev :=
  match groupLines ((ringCtx ring).getD 0) d xs with
  | none => d
  | some lines =>
    if !groupReady d ring then d
    else
      match takeLines (groupGlue ring d) lines d with
      | (false, d) => d
      | (true, d') =>
        if deckCannot d' lines then groupFails ring 8 xs (xs.map (fun _ => 0)) d' else groupCommit ring xs d d'

/-- The whole group at the front of a ring, if it may start now: its members, and whether its form is good. -/
def groupFront (ring : Nat) (d : Dev) : Option (List Desc × Bool) :=
  let taken := (ringAt d ring).taken
  match gatherGroup (taken.length + 1) [] taken with
  | none => none
  | some (xs, good) =>
    let open_ := (ctxAt d ((ringCtx ring).getD 0)).launches.length
    let n := (xs.filter (fun x => x.kind == kLaunch)).length
    if (xs.headD {}).group ≠ 1 then none
    else if xs.any (·.fence) && ringBusy d ring then none
    else if n ≠ 0 ∧ (64 < longCount d ring + n ∨ (8 < open_ + n ∧ open_ ≠ 0)) then none
    else some (xs, good)

/-- SUBMISSION_GROUP: all members take effect, or none (R441, R442). -/
def groupRow (ring : Nat) (d : Dev) : Dev :=
  match groupFront ring d with
  | none => d
  | some (xs, good) =>
    let code := groupError ring xs good
    if code ≠ 0 then
      groupFails ring 9 xs (xs.map (fun _ => code)) (groupRecord ring code (xs.headD {}) d)
    else groupTry ring xs d

def execSubmissionGroup (ring : Nat) (s : State) : Host.Outcome State Fault Refusal :=
  onDev (ringKnown ring) (groupRow ring) s

/-- The retry of a group whose glue-up is open in the given phase (R281, R283). -/
def groupRetry (id : Nat) (phase : GluePhase) (d : Dev) : Dev :=
  match glueAt d id with
  | some g => if g.phase == phase then groupRow (id - 640) d else d
  | none => d

/-- GLUE_TIMEOUT of a group's glue-up: it aborts with ERROR (R283, R287). -/
def groupTimeout (id : Nat) (d : Dev) : Dev :=
  match glueAt d id with
  | some g =>
    if glueLate d g then
      match groupFront (id - 640) d with
      | some (xs, _) => groupFails (id - 640) 8 xs (xs.map (fun _ => 0)) (glueTimeoutRec g d)
      | none => d
    else d
  | none => d

end Sys2Proof.Machine
end

