-- ==== Sys2Proof/Machine/Contexts.lean ====
section
/-!
DEFINITION. The descriptors of the admin ring (17 R438, R440): creating, destroying and switching contexts (13 R325 to R329,
R334 to R336) and clock plans (14 R367).
-/

namespace Sys2Proof.Machine

/-! ### CTX_CREATE (R325 to R327) -/

/-- Fields of a record image, in bits; the rest is reserved (R326). -/
def ctxRecFields : List (Nat × Nat) :=
  [(0, 7), (16, 19), (64, 64), (128, 64), (192, 48), (256, 48), (320, 48), (384, 15), (400, 34), (448, 48), (512, 48),
   (576, 48), (640, 160), (832, 640), (1472, 64)]

/-- The context that a record image describes. -/
def parseCtx (bs : List Byte) : Ctx :=
  let w0 := leAt bs 0 8
  let w6 := leAt bs 0x30 8
  { state := .idle, prio := bitsOf w0 5 3, sentinel := bitOf w0 6, wdogMs := bitsOf w0 31 16, dvRetry := bitsOf w0 34 32
    seed := BitVec.ofNat 64 (leAt bs 8 8), step := BitVec.ofNat 64 (leAt bs 0x10 8), ptRoot := leAt bs 0x18 6
    flagBase := leAt bs 0x20 6, descBase := leAt bs 0x28 6, flagCount := bitsOf w6 14 0, descCount := bitsOf w6 32 16
    gaugeCount := bitsOf w6 49 33, redBase := leAt bs 0x38 6, gaugeBase := leAt bs 0x40 6, saveBase := leAt bs 0x48 6
    cores := BitVec.ofNat 160 (leAt bs 0x50 20), channels := BitVec.ofNat 640 (leAt bs 0x68 80) }

/-- Whether two ranges (start, length) of a list overlap. -/
def rangesOverlap : List (Nat × Nat) → Bool
  | [] => false
  | x :: xs => xs.any (fun y => decide (0 < x.2) && decide (0 < y.2) && decide (x.1 < y.1 + y.2) && decide (y.1 < x.1 + x.2))
    || rangesOverlap xs

/-- HBM tables of a context: context table, root table, flag table, descriptor table, save area. -/
def hbmTables (d : Dev) (x : Ctx) : List (Nat × Nat) :=
  [(d.hostp.ctxTable, 2 ^ 20), (x.ptRoot, 2 ^ 14), (x.flagBase, 4 * x.flagCount), (x.descBase, 192 * x.descCount),
   (x.saveBase, saveCtxBytes + saveCoreBytes * (coresOf x).length)]

/-- The CTX_FIELD checks of R327, with the bound of R529 on the context table. -/
def ctxFieldBad (d : Dev) (bs : List Byte) (x : Ctx) : Bool :=
  x.cores == 0 || reservedSet (ofLe bs) 2048 ctxRecFields
    || decide (60000 < x.wdogMs) || decide (16384 < x.flagCount) || decide (65536 < x.descCount)
    || decide (x.gaugeCount < 16) || decide (65536 < x.gaugeCount)
    || !aligned (2 ^ 14) x.ptRoot || !aligned 64 x.flagBase || !aligned 64 x.descBase || !aligned 64 x.redBase
    || !aligned 64 x.gaugeBase || !aligned 4096 x.saveBase || !aligned (2 ^ 20) d.hostp.ctxTable
    || (hbmTables d x).any (fun r => decide (hbmSpan d.hbmc < r.1 + r.2))
    || rangesOverlap (hbmTables d x)
    || rangesOverlap [(x.redBase, 2 ^ 16), (x.gaugeBase, 320 * x.gaugeCount)]

/-- Channels of a context. -/
def chansOf (x : Ctx) : List Nat := bitList 640 0 x.channels.toNat

/-- Why a creation is refused, 0 if it is not (R327). At debug level 3 every creation is refused (R468). -/
def createError (f : Fuse) (d : Dev) (ctx : Nat) (bs : List Byte) (x : Ctx) : Nat :=
  let chanBad := fun m => let ch := chanAt d m; ch.owner.isSome || ch.run.isSome || ch.posted != []
  if (ctxAt d ctx).state ≠ .free ∨ d.pier.badCreate then ctxStateErr
  else if (coresOf x).any (fun c => !f.harvest.getLsbD c || d.run.sec.offline.getLsbD c) then ctxCoreErr
  else if (chansOf x).any chanBad then ctxChannelErr
  else if ctxFieldBad d bs x then ctxFieldErr
  else 0

/-- Default gauge slots at creation (R147), of the formats listed; a table that does not translate takes none, and a slot
that a glue-up holds makes the creation wait. -/
def gaugeDefaults (ctx : Nat) : List Nat → Dev → Option Dev
  | [], d => some d
  | fmt :: l, d =>
    match vWrite 20 ctx (gaugeAddr d ctx fmt) (gaugeSlotBytes fmt false (gaugeDefault fmt false)) d with
    | .ok d => gaugeDefaults ctx l d
    | .error .wait => none
    | .error _ => gaugeDefaults ctx l d

/-- Installs a context (R325): its record in HBM, its channels, default gauge slots and its ring; it waits for its
cores from now on (R329). None while a glue-up holds a line that it writes (R279). -/
def installCtx (ctx : Nat) (bs : List Byte) (x : Ctx) (d : Dev) : Option Dev :=
  let a := ctxRecAddr d ctx
  if accessHeld d false a 256 then none
  else
    let d := writeMem false a bs (plainAccess (linesOf a 256) d)
    let d := modCtx ctx (fun _ => { x with wants := true, since := nowNs d }) d
    let d := syncCtx ctx d
    let d := (chansOf x).foldl (fun d m => modChan m (fun _ => { owner := some ctx, retryLimit := x.dvRetry }) d) d
    (gaugeDefaults ctx (List.range 10) d).map (fun d => reside ctx (installRing ctx d))

/-- The start of an admin descriptor: reserved bits are refused for every kind. -/
def adminStart (kind : Nat) (run : Desc → Dev → Option (Option Nat × Dev)) (d : Dev) : Dev :=
  match startable adminRing kind d with
  | none => d
  | some x =>
    let fin := fun (code : Option Nat) (d : Dev) =>
      settleRing adminRing (match code with
        | some c => complete adminRing x c 0 (popTaken adminRing 1 d)
        | none => popTaken adminRing 1 d)
    if descBad x then fin (some hostField) d
    else
      match run x d with
      | none => d
      | some (code, d) => fin code d

/-- CTX_CREATE. -/
def createRow (f : Fuse) (d : Dev) : Dev :=
  adminStart kCtxCreate (fun x d =>
    let ctx := bitsOf x.word 75 64
    let a := bitsOf x.word 175 128
    if 2 ^ 48 < a + 256 then some (some hostField, d)
    else if (firstPoison d true a 256).isSome then some (some hostMem, imageRecord a 256 d)
    else
      let bs := readMem d true a 256
      let c := parseCtx bs
      let code := createError f d ctx bs c
      if code ≠ 0 then some (some code, d) else (installCtx ctx bs c d).map (fun d => (some 0, d))) d

def execCtxCreate (s : State) : Host.Outcome State Fault Refusal := onFuse true createRow s

/-! ### CTX_DESTROY (R440) -/

/-- Writes every completion that a ring holds. -/
def writeComps (ring : Nat) : Nat → Dev → Dev
  | 0, d => d
  | n + 1, d => writeComps ring n (writeComp ring d)

/-- Every descriptor of a ring not yet completed completes with HOST_CANCEL, and its records are written. -/
def cancelRing (ctx : Nat) (d : Dev) : Dev :=
  let r := ringAt d ctx
  let ls := (ctxAt d ctx).launches
  let d := modCtx ctx (fun x => { x with launches := [] }) d
  let d := ls.foldl (fun d l => pushComp ctx (launchComp l hostCancel) d) d
  let d := (r.waiting ++ r.taken).foldl (fun d x => complete ctx x hostCancel 0 d) d
  let d := modRing ctx (fun r => { r with waiting := [], taken := [] }) d
  writeComps ctx (ringAt d ctx).comps.length d

/-- A context's flags are unmapped and tombstoned (R315). -/
def dropFlags (ctx : Nat) (d : Dev) : Dev :=
  (List.range (ctxAt d ctx).flagCount).foldl (fun d v =>
    if fltValid (readMemLe d false (flagEntryAddr d ctx v) 4) then unmapFlag ctx v d else d) d

/-- Everything of a context that its destruction ends. Its cores have no last owner any more: another context of its number
finds them zeroed (R232). -/
def destroyCtx (ctx : Nat) (d : Dev) : Dev :=
  let x := ctxAt d ctx
  let d := dropGlues ctx (dropPlaner ctx (stopChannels ctx (scrambleFlights ctx d)))
  let d := dropFlags ctx (cancelRing ctx (endGlue (hostGlue ctx) d))
  let d := (chansOf x).foldl (fun d m => modChan m (fun _ => {}) d) d
  let d := (coresOf x).foldl (fun d c =>
    if (coreAt d c).resident = some ctx then
      { modCore c (fun k => { k with resident := none }) d with queues := mapClear (4 * c) 4 d.queues }
    else d) d
  let d := setCtxState ctx .free d
  let d := { d with
    saved := mapClear (ctx * 256) 256 d.saved
    parts := mapClear (ctx * 1024) 1024 d.parts
    xcache := d.xcache.filter (fun e => e.ctx != ctx)
    fcache := d.fcache.filter (fun e => e.ctx != ctx)
    late := d.late.filter (fun e => e.ctx != ctx)
    cores := (d.cores.filter (fun p => p.2.lastOwner == some ctx)).foldl
      (fun m p => mapMod {} p.1 (fun k => { k with lastOwner := none }) m) d.cores
    fab := { d.fab with
      exch := d.fab.exch.filter (fun e => e.ctx != ctx), waits := d.fab.waits.filter (fun e => e.ctx != ctx) } }
  let d := modCtx ctx (fun _ => {}) d
  if (ringAt d ctx).comps = [] then dropRing ctx d else modRing ctx (fun r => { r with drop := true }) d

/-- CTX_DESTROY; a context that is free is refused. -/
def destroyRow (d : Dev) : Dev :=
  adminStart kCtxDestroy (fun x d =>
    let ctx := bitsOf x.word 75 64
    if (ctxAt d ctx).state = .free then some (some ctxStateErr, d)
    else if rangeHeld d (ctxAt d ctx).flagBase (4 * (ctxAt d ctx).flagCount) then none
    else some (some 0, resideAll (destroyCtx ctx d))) d

def execCtxDestroy (s : State) : Host.Outcome State Fault Refusal := onDev true destroyRow s

/-! ### Switches (R329, R334) -/

/-- Whether a context is installed and off its cores. -/
def ctxWaits (x : Ctx) : Bool := x.state == .idle || x.state == .saved

/-- CTX_SWITCH: a second switch waits for the one under way. -/
def switchRow (d : Dev) : Dev :=
  adminStart kCtxSwitch (fun x d =>
    let out := bitsOf x.word 75 64
    let inn := if bitOf x.word 95 then none else some (bitsOf x.word 91 80)
    if d.hostp.switch.isSome then none
    else
      let innBad := match inn with | some i => !ctxWaits (ctxAt d i) | none => false
      if (ctxAt d out).state != .resident || innBad then some (some ctxStateErr, d)
      else some (none, switchBegin out inn (some x.seqNo) d)) d

def execCtxSwitch (s : State) : Host.Outcome State Fault Refusal := onDev true switchRow s

/-- PRIORITY_PREEMPT (R329): a waiting context takes cores that are free, switches out a holder of lower priority at
once, and one of equal or higher need only when a launch of the holder has completed and none is open. -/
def preempt (ctx : Nat) (d : Dev) : Dev :=
  let x := ctxAt d ctx
  if !x.wants || !ctxWaits x || d.hostp.switch.isSome || mustYield d ctx then d
  else
    let holders := ((coresOf x).filterMap (fun c => (coreAt d c).resident)).eraseDups
    let yields := fun h =>
      let y := ctxAt d h
      y.state == .resident && (decide (y.prio < x.prio) || (y.ran && y.launches == []))
    match holders.find? yields with
    | some h => switchBegin h (some ctx) none d
    | none => reside ctx d

def execPriorityPreempt (ctx : Nat) (s : State) : Host.Outcome State Fault Refusal :=
  onDev (decide (ctx < 4096)) (preempt ctx) s

/-- The incoming context of a switch waits for its cores, and takes them if they are free. -/
def switchIn (inn : Option Nat) (d : Dev) : Dev :=
  match inn with
  | none => d
  | some i =>
    if ctxWaits (ctxAt d i) then
      reside i (modCtx i (fun x => { x with wants := true, since := if x.wants then x.since else nowNs d }) d)
    else d

/-- Whether work of a draining context has yet to reach its boundary: a glue-up past its commit point (R285), or a command
in flight in an M queue (R106). -/
def stillDrains (d : Dev) (out : Nat) : Bool :=
  d.glues.any (fun g => g.ctx == out && g.phase == .committed && decide (g.id < 640))
    || (coresOf (ctxAt d out)).any (fun c => (coreAt d c).resident == some out && (queueAt d c 1).inflight != [])

/-- SWITCH_DRAIN_DONE: work in flight has stopped; steps 3 to 6 of R334. What has not makes the switch wait. -/
def drainDone (d : Dev) : Dev :=
  match d.hostp.switch with
  | none => d
  | some s =>
    let out := s.out.getD 4096
    let draining := (ctxAt d out).state == .draining
    let d' := { d with hostp := { d.hostp with switch := none } }
    match (if draining && stillDrains d out then none else if draining then leaveCores out d' else some d') with
    | none => d
    | some d =>
      let d := if s.seqNo.isNone && (ctxAt d out).state == .saved && (ctxAt d out).launches != [] then
          modCtx out (fun x => { x with wants := true, since := nowNs d }) d
        else d
      let d := resideAll (switchIn s.inn d)
      match s.seqNo with
      | some q =>
        let code := if (ctxAt d out).state = .faulted then (ctxAt d out).faultCode else 0
        settleRing adminRing (pushComp adminRing { seqNo := q, kind := kCtxSwitch, error := code } d)
      | none => d

def execSwitchDrainDone (s : State) : Host.Outcome State Fault Refusal := onDev true drainDone s

/-! ### CLOCK_PLAN (R367, R438) -/

/-- CLOCK_PLAN: a plan off the turn grid, late, more than 60 s ahead, with a target above 1.75 GHz, or beside a plan that
waits, is refused with PWR_PLAN. -/
def planRow (d : Dev) : Dev :=
  adminStart kClockPlan (fun x d =>
    let t := bitsOf x.word 127 64
    let ts := (List.range 20).map (fun k => bitsOf x.word (133 + 6 * k) (128 + 6 * k))
    let named := bitMap (((ts.zip (List.range 20)).filter (fun y => y.1 != 63)).map (·.2))
    if d.pwr.plan.isSome || !applyTimeOk d t || ts.any (fun y => decide (42 < y) && y != 63) then
      some (some pwrPlan, raiseFields pwrPlan unitKeystone none [(t, 64), (named, 20)] d)
    else some (none, { d with pwr := { d.pwr with plan := some { t := t, targets := ts, seqNo := x.seqNo } } })) d

def execClockPlan (s : State) : Host.Outcome State Fault Refusal := onDev true planRow s

end Sys2Proof.Machine
end

