-- ==== Sys2Proof/Machine/GlueEvents.lean ====
section
/-!
DEFINITION. The events of a coordinator that waits (11 R281, R283): a backoff that ends, a clamped run, and the timeout, of
the glue-up of an S queue, of a Planer or of the host port.
-/

namespace Sys2Proof.Machine

/-- Who opened the glue-up of a number: 3 an S queue, 2 a Planer, 0 the host port. -/
def glueOpener (id : Nat) : Nat := if 640 ≤ id then 0 else id % 4

/-- GLUE_BACKOFF (R281): the replay at the end of the wait. -/
def glueBackoff (id : Nat) (d : Dev) : Dev :=
  match glueOpener id with
  | 3 => backoffEnd id d
  | 2 => planerRetry id .backoff d
  | _ => groupRetry id .backoff d

def execGlueBackoff (id : Nat) (s : State) : Host.Outcome State Fault Refusal := onDev true (glueBackoff id) s

/-- GLUE_CLAMPED (R283). -/
def glueClamped (id : Nat) (d : Dev) : Dev :=
  match glueOpener id with
  | 3 => clampedRun id d
  | 2 => planerRetry id .waitClamp d
  | _ => groupRetry id .waitClamp d

def execGlueClamped (id : Nat) (s : State) : Host.Outcome State Fault Refusal := onDev true (glueClamped id) s

/-- GLUE_TIMEOUT (R283): 50 µs after its fourth abort a glue-up has not committed. -/
def glueTimeout (id : Nat) (d : Dev) : Dev :=
  match glueOpener id with
  | 3 => glueTimeoutAt id d
  | 2 => planerTimeout id d
  | _ => groupTimeout id d

def execGlueTimeout (id : Nat) (s : State) : Host.Outcome State Fault Refusal := onDev true (glueTimeout id) s

end Sys2Proof.Machine
end

