-- ==== Sys2Proof/Machine/Images.lean ====
section
/-!
DEFINITION. Signed images (18 R457 to R459) and measurements (R466).
-/

namespace Sys2Proof.Machine

/-! ### Headers (R457, R458) -/

def imgKind (h : List Byte) : Nat := leAt h 0 1
def imgSvn (h : List Byte) : Nat := bitsOf (leAt h 0 8) 13 8
def imgOwner (h : List Byte) : Bool := bitOf (leAt h 0 8) 14
def imgLength (h : List Byte) : Nat := leAt h 8 4

/-- Largest body of a kind. -/
def imgMost (kind : Nat) : Nat := if kind = 1 then 16 * 2 ^ 20 else 2 ^ 20

/-- The form of a header for a place in flash: reserved bits, kind, stepping and length. IMG.OWNER stands on kind 2
alone. -/
def imgForm (kind : Nat) (h : List Byte) : Bool :=
  let w := leAt h 0 8
  h.length == 128 && imgKind h == kind && bitsOf w 63 15 == 0 && leAt h 0x0C 1 == 0xB0 && leAt h 0x0D 3 == 0
    && leAt h 0x70 16 == 0 && decide (imgLength h ≤ imgMost kind) && !(imgOwner h && kind == 1)

def holseverKeyBytes : List Byte := (List.range 64).map Config.holseverKey
def debugKeyBytes : List Byte := (List.range 64).map Config.debugKey

/-- Whether a header's signature verifies under the key that its kind requires: the Holsever key, or the owner key for
options once one is enrolled (R458). -/
def imgSig (f : Fuse) (ownerKey : List Byte) (kind : Nat) (h : List Byte) : Bool :=
  let owner := kind == 2 && f.ownerDigest.isSome
  let key := if owner then ownerKey else holseverKeyBytes
  (kind == 1 || imgOwner h == owner) && Config.sm2Verify key (Config.sm3 (h.take 0x30)) ((h.drop 0x30).take 64)

/-- Whether the body is the one that the header names. -/
def imgDigest (h body : List Byte) : Bool := body.length == imgLength h && sm3Bytes body == (h.drop 0x10).take 32

/-- The fused rollback counter of a kind (R461). -/
def rbCounter (f : Fuse) (kind : Nat) : Nat := if kind = 1 then f.rbFirmware else f.rbConfig

/-- Whether the stored owner key is the enrolled one (R459). -/
def ownerKeyOk (f : Fuse) (key : List Byte) : Bool :=
  match f.ownerDigest with
  | some dg => Config.sm3 key == dg
  | none => true

/-! ### Measurements (R466) -/

/-- The bytes of every timetable, ports and entries rising. -/
def timetableBytes (d : Dev) : List Byte :=
  (List.range 18).flatMap (fun p => (List.range 4096).flatMap (fun b =>
    leBytes 8 (mapGet 0 d.tab.live (p * 4096 + b)).toNat))

/-- What the digest of a block covers. The contents of blocks 1, 4 and 6 have no layout in the spec: log entry 12. -/
def measured (f : Fuse) (d : Dev) : Nat → List Byte
  | 1 => (List.range 65536).map Config.bootRom ++ Config.fuseImage f.trim f.harvest f.rbFirmware f.rbConfig f.ownerDigest
      f.dbgLimitHolsever f.dbgLimitOwner
  | 2 => d.run.fwHeader ++ d.run.fwBody
  | 3 => d.run.optHeader ++ d.run.optBody ++ (if f.ownerDigest.isSome then d.run.ownerKey else [])
  | 4 => leBytes 16 d.run.sec.mapout.toNat ++ leBytes 1 d.hbmc.active.length
  | 5 => timetableBytes d
  | 6 => leBytes 1 d.pier.debug ++ leBytes 32 d.pier.tokenDigest.toNat
  | _ => []

/-- A measurement block: its SM3 digest. -/
def measurement (f : Fuse) (d : Dev) (i : Nat) : List Byte := sm3Bytes (measured f d i)

end Sys2Proof.Machine
end

