-- ==== Sys2Proof/Machine/Startup.lean ====
section
/-!
DEFINITION. Start-up (18 R450 to R453, R458 to R462; 10 R249, R250, R252; 19 R492). Each step begins only after the step
before it; the times of R451 are bounds of the steps and are left to the order of the commands.
-/

namespace Sys2Proof.Machine

/-- A module without input: flash and what lies outside the module stay, all else is lost (R339, R474). The next start-up
still holds for a fence that the map-out list had no room for (R250). -/
def unpowered (d : Dev) : Dev :=
  let z : Dev := {}
  { z with
    flash := d.flash, host := (decksLost d).host, hostPoison := d.hostPoison, free := d.free
    hbmc := { z.hbmc with overflow := d.hbmc.overflow }
    pwr := { z.pwr with perst := d.pwr.perst } }

/-- POWER_ON (R450, R551): the input enters the start window; keystone time starts at 0 and the rails ramp. -/
def powerOn (v : Nat) (d : Dev) : Dev :=
  if d.pwr.phase = .unpowered then
    if 5600 ≤ v ∧ v ≤ 6400 then { d with pwr := { d.pwr with phase := .softStart, vin := v, started := 0 } } else d
  else { d with pwr := { d.pwr with vin := v } }

def execPowerOn (vin10mV : Nat) (s : State) : Host.Outcome State Fault Refusal := onDev true (powerOn vin10mV) s

/-- RAILS_GOOD: step 2. -/
def execRailsGood (s : State) : Host.Outcome State Fault Refusal :=
  onDev true (fun d => if d.pwr.phase = .softStart then { d with pwr := { d.pwr with phase := .railsUp } } else d) s

/-- Whether start-up stands after a step and no pin holds it in reset (R559). -/
def atStep (p : Phase) (d : Dev) : Bool := d.pwr.phase == p && !d.pwr.mrstLow

def toPhase (p : Phase) (d : Dev) : Dev := { d with pwr := { d.pwr with phase := p } }

/-- FUSE_READ: step 3. -/
def execFuseRead (s : State) : Host.Outcome State Fault Refusal :=
  onFuse true (fun f d =>
    if !atStep .railsUp d then d else if f.rowsOk then toPhase .fuseRead d else enterHold holdFuse 0 0 d) s

/-- Why an image of flash is refused, with the hold reasons of its kind; 0 if it is accepted (R458, R459). -/
def imageFault (f : Fuse) (d : Dev) (kind : Nat) (s : Slot) : Nat :=
  let sig := if kind = 1 then holdImageSig else holdConfigSig
  if !imgForm kind s.header then (if kind = 1 then holdFormat else holdConfigSig)
  else if kind = 2 && !ownerKeyOk f d.flash.ownerKey then sig
  else if !imgSig f d.flash.ownerKey kind s.header || !imgDigest s.header s.body then sig
  else if imgSvn s.header < rbCounter f kind then (if kind = 1 then holdImageRollback else holdConfigRollback)
  else 0

/-- The state section in force: the valid copy with the higher sequence; none valid leaves it empty with CONFIG_STATE
(R460). Cleared map-out entries go (R251), and the boot counter advances. -/
def loadSection (d : Dev) : Dev :=
  let a := d.flash.copyA
  let b := d.flash.copyB
  let sec := if a.valid && !(b.valid && decide (a.seqNo < b.seqNo)) then some a else if b.valid then some b else none
  let d := match sec with
    | some s => { d with run := { d.run with sec := s } }
    | none => raiseFields configState unitFlash none [(a.seqNo, 32), (b.seqNo, 32)] { d with run := { d.run with sec := {} } }
  saveSection (fun s => { s with boot := s.boot + 1, mapout := s.mapout &&& ~~~s.cleared, cleared := 0 }) d

/-- LOAD_AND_VERIFY: step 4. What flash holds is what measurements cover in config-hold (R466). -/
def loadVerify (f : Fuse) (d : Dev) : Dev :=
  if !atStep .fuseRead d then d
  else if !d.flash.answers then enterHold holdFlash 0 0 d
  else
    let fw := d.flash.firmware
    let op := d.flash.options
    let d := { d with run := { d.run with
      fwHeader := fw.header, fwBody := fw.body, optHeader := op.header, optBody := op.body, ownerKey := d.flash.ownerKey } }
    let e1 := imageFault f d 1 fw
    let e2 := imageFault f d 2 op
    let d := loadSection d
    if e1 ≠ 0 then enterHold e1 1 (imgSvn fw.header) d
    else if e2 ≠ 0 then enterHold e2 2 (imgSvn op.header) d
    else if d.pier.holdNext then enterHold holdReq 0 0 d
    else toPhase .verified d

def execLoadAndVerify (s : State) : Host.Outcome State Fault Refusal := onFuse true loadVerify s

/-- DIE_RELEASE: step 5. A die that fails, or a ninth core on the offline list, holds with DIE (R462, R492). -/
def dieReleased (dieOk : Bool) (d : Dev) : Dev :=
  if !atStep .verified d then d
  else if !dieOk || decide (8 < popCount 160 d.run.sec.offline.toNat) then enterHold holdDie 0 0 d
  else toPhase .released d

def execDieRelease (dieOk : Bool) (s : State) : Host.Outcome State Fault Refusal := onDev true (dieReleased dieOk) s

/-- Channels that fail training are fenced and entered in the map-out list; none if the list has no room (R250, R252). -/
def mapoutFailed : List Nat → Dev → Except Nat Dev
  | [], d => .ok d
  | ch :: chs, d =>
    if d.run.sec.mapout.getLsbD ch then mapoutFailed chs d
    else if !mapoutRoom d.run.sec.mapout ch then .error ch
    else
      let d := { d with hbmc := { d.hbmc with
        fenced := d.hbmc.fenced ||| BitVec.twoPow 128 ch, fencedCount := d.hbmc.fencedCount + 1 } }
      let d := raiseFields hbmFence (unitHbm ch) none [(ch, 8), (fenceTraining, 8), (366210, 32)] d
      mapoutFailed chs (mapoutAdd ch d)

/-- HBM_TRAINING: step 6. The active channels and the interleave are fixed (R236, R249). -/
def hbmTrain (failed : List Nat) (d : Dev) : Dev :=
  if !atStep .released d then d
  else
    let bad := bitList 128 0 d.hbmc.overflow.toNat ++ failed.filter (fun c => decide (c < 128))
    match mapoutFailed bad d with
    | .error ch =>
      let st := stackOf ch
      let d := raiseFields hbmMapoutFull (unitHbm ch) none [(st, 8), (d.run.sec.mapout.toNat, 128)] d
      enterHold holdMapout 0 0 d
    | .ok d =>
      let act := (List.range 128).filter (fun c => !d.run.sec.mapout.getLsbD c)
      toPhase .trained { d with hbmc := { d.hbmc with
        active := act, die := Config.dieInterleave d.run.optBody, overflow := 0 } }

def execHbmTraining (failed : List Nat) (s : State) : Host.Outcome State Fault Refusal := onDev true (hbmTrain failed) s

/-- HBM_ZEROING: step 7. -/
def execHbmZeroing (s : State) : Host.Outcome State Fault Refusal :=
  onDev true (fun d => if atStep .trained d then toPhase .zeroed { d with hbm := [], hbmPoison := [] } else d) s

/-- FABRIC_TRAINING: step 9. A port with a saved coefficient record comes up from it; another stays in training
(R372, R373). -/
def fabricTrain (trained : List Nat) (d : Dev) : Dev :=
  trained.foldl (fun d p =>
    if 18 ≤ p then d
    else
      match d.run.sec.coefs.find? (fun c => c.port == p) with
      | some c => trainPort p 255 c.peerSerial c.peerPort d
      | none => trainPort p 0 0 0 d) d

def execFabricTraining (trained : List Nat) (s : State) : Host.Outcome State Fault Refusal := onDev true (fabricTrain trained) s

/-- READY: step 10. Memory_Active is set; rings and context creation are enabled (R451, R453). -/
def execReady (s : State) : Host.Outcome State Fault Refusal :=
  onDev true (fun d =>
    if atStep .zeroed d then toPhase .ready { d with hostp := { d.hostp with memActive := true } } else d) s

end Sys2Proof.Machine
end

