-- ==== Sys2Proof/Machine/Pins.lean ====
section
/-!
DEFINITION. Pins, power, cooling, the external reference and the management bus (22 R545 to R559; 01 R26; 14 R348, R368).
-/

namespace Sys2Proof.Machine

/-! ### Input and removal (R450, R474, R551) -/

/-- INPUT_LOSS: the input stands at a voltage outside the operating window; an overvoltage is kept as the trip cause. -/
def inputLost (v : Nat) (d : Dev) : Dev :=
  if 5400 ≤ v ∧ v ≤ 6400 then { d with pwr := { d.pwr with vin := v } }
  else
    let d := unpowered d
    { d with pwr := { d.pwr with vin := v, tripCause := if 6600 < v then 5 else 0 } }

def execInputLoss (vin10mV : Nat) (s : State) : Host.Outcome State Fault Refusal := onDev true (inputLost vin10mV) s

/-- SURPRISE_REMOVAL (R474): flash stays. -/
def execSurpriseRemoval (s : State) : Host.Outcome State Fault Refusal :=
  onDev true (fun d =>
    let d := unpowered d
    { d with pwr := {} }) s

/-! ### PERST# and MRST_N (R454, R455, R555, R559) -/

def execPerstAssert (s : State) : Host.Outcome State Fault Refusal :=
  onDev true (fun d => hostLinkFalls { d with pwr := { d.pwr with perst := true } }) s

def execPerstDeassert (s : State) : Host.Outcome State Fault Refusal :=
  onDev true (fun d => { d with pwr := { d.pwr with perst := false } }) s

/-- Throttle temperature of a sensor in 1/16 degree; the coolant has none (R554). -/
def throttleAt : Sensor → Option Int
  | .compute0 | .compute1 | .io => some 1600
  | .hbm => some 1520
  | .stage => some 1760
  | .coolant => none

/-- Trip temperature of a sensor (R554). -/
def tripAt : Sensor → Option Int
  | .compute0 | .compute1 | .io => some 1840
  | .hbm => some 1680
  | .stage => some 2000
  | .coolant => none

/-- The last reading of a sensor. -/
def sensorAt (p : Power) : Sensor → Int
  | .compute0 => p.tCompute0
  | .compute1 => p.tCompute1
  | .io => p.tIo
  | .hbm => p.tHbm
  | .stage => p.tStage
  | .coolant => p.tCoolant

/-- Whether every sensor reads below its throttle temperature. -/
def cool (p : Power) : Bool :=
  [Sensor.compute0, .compute1, .io, .hbm, .stage].all (fun x => match throttleAt x with
    | some t => decide (sensorAt p x < t)
    | none => true)

/-- What a pulse on MRST_N starts: the restart of a tripped module, ignored while a sensor is hot, or a module reset. -/
def pulse (d : Dev) : Dev :=
  if d.pwr.phase = .tripped then (if cool d.pwr then cycleRails { d with pwr := { d.pwr with tripCause := 0 } } else d)
  else moduleReset false d

/-- MRST_N is low for 10 µs; a shorter low level starts nothing. -/
def mrstFalls (lowNs : Nat) (d : Dev) : Dev :=
  if lowNs < 10000 || d.pwr.phase == .unpowered || (d.pwr.phase == .tripped && !cool d.pwr) then d
  else pulse { d with pwr := { d.pwr with mrstLow := true } }

def execMrstN (lowNs : Nat) (s : State) : Host.Outcome State Fault Refusal := onDev true (mrstFalls lowNs) s

/-- Release of MRST_N: start-up runs, and the bound of the module reset counts from here. -/
def mrstRises (d : Dev) : Dev :=
  if !d.pwr.mrstLow then d
  else
    { d with
      pwr := { d.pwr with mrstLow := false, started := nowNs d }
      resets := d.resets.map (fun j => if 4 ≤ j.domain then { j with since := nowNs d } else j) }

def execMrstNRelease (s : State) : Host.Outcome State Fault Refusal := onDev true mrstRises s

/-! ### Clocks (R19, R26, R366, R368, R554) -/

/-- Clocks of the clusters one step of 25 MHz lower, never below 0.70 GHz. -/
def lowerClocks (cs : List Nat) (m : SMap Nat) : SMap Nat :=
  cs.foldl (fun m c => mapPut 70 c (max 28 (mapGet 70 m c - 1)) m) m

/-- Clocks of the clusters one step of 25 MHz higher, never above 1.75 GHz. -/
def raiseClocks (cs : List Nat) (m : SMap Nat) : SMap Nat :=
  cs.foldl (fun m c => mapPut 70 c (min 70 (mapGet 70 m c + 1)) m) m

/-- The module falls back from COORD to AUTO. -/
def fallBack (d : Dev) : Dev :=
  if d.pwr.coord then { d with pwr := { d.pwr with coord := false, fellBack := true } } else d

/-- Clusters that a hot sensor slows. -/
def slowed : Sensor → List Nat
  | .compute0 => List.range 10
  | .compute1 => (List.range 10).map (· + 10)
  | _ => allClusters

def sensorBit : Sensor → Nat
  | .compute0 => 0
  | .compute1 => 1
  | .io => 2
  | .hbm => 3
  | .stage => 4
  | .coolant => 5

/-- A sensor reads a temperature. -/
def takeTemp (x : Sensor) (t : Int) (p : Power) : Power :=
  match x with
  | .compute0 => { p with tCompute0 := t }
  | .compute1 => { p with tCompute1 := t }
  | .io => { p with tIo := t }
  | .hbm => { p with tHbm := t }
  | .stage => { p with tStage := t }
  | .coolant => { p with tCoolant := t }

/-- THERMAL_THROTTLE (R554): one step down at the throttle temperature and until the sensor reads 3 K below it, then one
step up, unless the cap is exceeded or another sensor throttles (R26). -/
def throttle (x : Sensor) (t : Int) (d : Dev) : Dev :=
  if d.pwr.phase = .unpowered then d
  else
    let d := { d with pwr := takeTemp x t d.pwr }
    match throttleAt x with
    | none => d
    | some lim =>
      let on := d.pwr.throttling.getLsbD (sensorBit x)
      if !railsOn d then d
      else if lim ≤ t || (on && decide (lim - 48 < t)) then
        let d := fallBack d
        attnSet 8 { d with pwr := { d.pwr with
          throttling := d.pwr.throttling ||| BitVec.twoPow 5 (sensorBit x), alert := true
          clocks := lowerClocks (slowed x) d.pwr.clocks } }
      else if on then
        { d with pwr := { d.pwr with
          throttling := d.pwr.throttling &&& ~~~BitVec.twoPow 5 (sensorBit x)
          clocks := if d.pwr.coord || decide (d.pwr.cap < d.pwr.watts)
              || d.pwr.throttling != BitVec.twoPow 5 (sensorBit x) then d.pwr.clocks
            else raiseClocks (slowed x) d.pwr.clocks } }
      else d

def execThermalThrottle (sensor : Sensor) (temp16 : Int) (s : State) : Host.Outcome State Fault Refusal :=
  onDev true (throttle sensor temp16) s

/-- Cause code of a trip (R558). -/
def tripCode : Sensor → Nat
  | .compute0 | .compute1 => 1
  | .io => 2
  | .hbm => 3
  | .stage => 4
  | .coolant => 0

/-- THERMAL_TRIP (R555): the package rails go; the always-on island stays. -/
def trip (x : Sensor) (t : Int) (d : Dev) : Dev :=
  if d.pwr.phase = .unpowered then d
  else
    let d := { d with pwr := takeTemp x t d.pwr }
    match tripAt x with
    | none => d
    | some lim =>
      if t < lim || d.pwr.phase == .tripped then d
      else
        let d := d.ports.foldl (fun d (p : Nat × Port) => dropEgress p.1 dropLink (fun _ => true) d) d
        let d := moduleCleared false d
        { d with pwr := { d.pwr with phase := .tripped, tripCause := tripCode x, throttling := 0 }, resets := [] }

def execThermalTrip (sensor : Sensor) (temp16 : Int) (s : State) : Host.Outcome State Fault Refusal :=
  onDev true (trip sensor temp16) s

/-- POWER_CAP_ADJUST (R26, R366, R367): in AUTO the clocks step down while the cap is exceeded, and up again while it is kept
and no sensor throttles; in COORD they stay. With every cluster at 0.70 GHz and the cap exceeded, PWR_LIMIT is raised in either
mode and the clusters stay there. -/
def capAdjust (watts : Nat) (d : Dev) : Dev :=
  if !railsOn d then d
  else
    let d := { d with pwr := { d.pwr with watts := watts } }
    if d.pwr.cap < watts then
      if atFloor d.pwr.clocks then raiseFields pwrLimit unitPower none [(watts, 11), (d.pwr.cap, 11)] d
      else if d.pwr.coord then d
      else { d with pwr := { d.pwr with clocks := lowerClocks allClusters d.pwr.clocks } }
    else if !d.pwr.coord && d.pwr.throttling == 0 then { d with pwr := { d.pwr with clocks := raiseClocks allClusters d.pwr.clocks } }
    else d

def execPowerCapAdjust (watts : Nat) (s : State) : Host.Outcome State Fault Refusal := onDev true (capAdjust watts) s

/-- PWR_GUARD (R368): more than 5% above the cap for 1 ms in COORD. -/
def guardFires (watts forNs : Nat) (d : Dev) : Dev :=
  if !railsOn d then d
  else
    let d := { d with pwr := { d.pwr with watts := watts } }
    if !d.pwr.coord || decide (watts * 100 ≤ d.pwr.cap * 105) || decide (forNs < 1000000) then d
    else
      let d := fallBack d
      raiseFields pwrGuardCls unitPower none [(watts, 11), (d.pwr.cap, 11)]
        { d with pwr := { d.pwr with clocks := lowerClocks allClusters d.pwr.clocks } }

def execPwrGuard (watts forNs : Nat) (s : State) : Host.Outcome State Fault Refusal := onDev true (guardFires watts forNs) s

/-! ### The external reference (R348, R548 to R550) -/

/-- Whether the reference inputs are read. -/
def refRead (d : Dev) : Bool := d.pwr.phase != .unpowered && d.kt.extref && isRoot d.kt

/-- CRC-8 of R550: polynomial 0x07, initial value 0. -/
def crc8Bits : Nat → Nat → Nat
  | 0, c => c
  | n + 1, c => crc8Bits n (if 128 ≤ c then (c * 2 % 256) ^^^ 7 else c * 2)

def crc8 (bs : List Byte) : Nat := bs.foldl (fun c b => crc8Bits 8 (c ^^^ b.toNat)) 0

/-- TCODE_FRAME (R550): the frame waits for the edge that it names. -/
def codeArrives (bs : List Byte) (d : Dev) : Dev :=
  if refRead d && bs.length == 11 && leAt bs 0 1 == 0x5A && leAt bs 9 1 == 0 && leAt bs 10 1 == crc8 ((bs.drop 1).take 9) then
    { d with kt := { d.kt with code := some (leAt bs 1 8, nowNs d) } }
  else d

def execTcodeFrame (bytes : List Byte) (s : State) : Host.Outcome State Fault Refusal := onDev true (codeArrives bytes) s

/-- The reference is lost: the root keeps its rate and stays root, with a TIME_EXTREF record (R348). -/
def refLose (cause : Nat) (d : Dev) : Dev :=
  if !d.kt.refLocked then d
  else
    raiseFields timeExtref unitKeystone none [(cause, 8)]
      { d with kt := { d.kt with
        refLocked := false, refLost := true, refLeft := 0
        state := if d.kt.state = .extref then .master else d.kt.state } }

/-- EXTREF_LOSS: 1 no edge within 1.5 s, 2 REF10M missing, 3 a skipped second. -/
def execExtrefLoss (cause : Nat) (s : State) : Host.Outcome State Fault Refusal :=
  onDev true (fun d =>
    let due := match cause with
      | 1 => (match d.kt.lastPps with
        | some t => decide (t + 1500000000 < nowNs d)
        | none => true)
      | _ => cause == 2 || cause == 3
    if refRead d && due then refLose cause d else d) s

/-- Fraction units of a second count. -/
def secondUnits (n : Nat) : Nat := n * 1000000000 * 65536

/-- An edge that marks the second `n`: the first lock steps the count where R339 allows, and any other edge leaves the
difference to be slewed. -/
def lockRef (n : Nat) (d : Dev) : Dev :=
  let first := !d.kt.refLocked && !d.kt.refLost && stepAllowed d
  let d := if first then stepTime ((secondUnits n : Int) - d.kt.now) d else d
  { d with kt := { d.kt with
    refLocked := true, refLost := false, firstLock := true, state := .extref
    refLeft := (secondUnits n : Int) - d.kt.now } }

/-- PPS_IN: an edge with a counted frame marks the second that the frame names; an edge without one, once locked, marks
the nearest second. -/
def ppsArrives (d : Dev) : Dev :=
  if !refRead d then d
  else
    let now := nowNs d
    let frame := match d.kt.code with
      | some (n, at_) => if at_ + 100000000 ≤ now && decide (now ≤ at_ + 900000000) then some n else none
      | none => none
    let last := d.kt.lastSecond
    let d := { d with kt := { d.kt with lastPps := some now, code := none } }
    match frame with
    | some n =>
      let d := { d with kt := { d.kt with lastSecond := some n } }
      if d.kt.refLocked && last.isSome && last.map (· + 1) != some n then refLose 3 d
      else
        let d := lockRef n d
        { d with kt := { d.kt with lastPps := some (nowNs d) } }
    | none => if d.kt.refLocked then lockRef ((now + 500000000) / 1000000000) d else d

def execPpsIn (s : State) : Host.Outcome State Fault Refusal := onDev true ppsArrives s

/-- PPS_OUT (R549). -/
def execPpsOut (s : State) : Host.Outcome State Fault Refusal :=
  onDev true (fun d =>
    if d.pwr.phase = .unpowered then d
    else { d with pwr := { d.pwr with ppsOut := nowNs d / 1000000000 } }) s

/-! ### The management bus (R557, R558) -/

/-- A transaction: not acknowledged without 60 V or with a failing checking byte. -/
def smReply (pecOk : Bool) (bs : List Byte) (d : Dev) : Dev :=
  { d with pwr := { d.pwr with smbus := if pecOk && d.pwr.phase != .unpowered then some bs else none } }

/-- STATE. -/
def moduleState (d : Dev) : Nat :=
  match d.pwr.phase with
  | .configHold => 1
  | .ready => 3
  | .quiesced => 4
  | .tripped => 5
  | _ => if d.pwr.mrstLow || d.resets.any (fun j => 4 ≤ j.domain) then 2 else 0

def execSmState (pecOk : Bool) (s : State) : Host.Outcome State Fault Refusal :=
  onDev true (fun d => smReply pecOk (leBytes 1 (moduleState d)) d) s

def execSmIdent (pecOk : Bool) (s : State) : Host.Outcome State Fault Refusal :=
  onFuse true (fun f d => smReply pecOk
    (leBytes 8 f.serial.toNat ++ leBytes 1 (bit01 (idHarvest f)) ++ leBytes 1 0xB0
      ++ leBytes 2 (if d.tab.modidValid then d.tab.modid else 0) ++ leBytes 1 (bit01 d.tab.modidValid)) d) s

def execSmTemps (pecOk : Bool) (s : State) : Host.Outcome State Fault Refusal :=
  onDev true (fun d => smReply pecOk
    ([Sensor.compute0, .compute1, .io, .hbm, .stage, .coolant].flatMap (fun x =>
      leBytes 2 (toTwos 16 (sensorAt d.pwr x)))) d) s

def execSmPower (pecOk : Bool) (s : State) : Host.Outcome State Fault Refusal :=
  onDev true (fun d => smReply pecOk (leBytes 2 d.pwr.watts) d) s

def execSmVin (pecOk : Bool) (s : State) : Host.Outcome State Fault Refusal :=
  onDev true (fun d => smReply pecOk (leBytes 2 d.pwr.vin) d) s

def execSmThermal (pecOk : Bool) (s : State) : Host.Outcome State Fault Refusal :=
  onDev true (fun d => smReply pecOk (leBytes 1
    (packFields [(bit01 (d.pwr.throttling != 0), 1), (bit01 (d.pwr.phase == .tripped), 1), (d.pwr.tripCause, 3)])) d) s

/-- ALERT_CLR: ALERT_N is released and asserted again if the condition still holds. -/
def execSmAlertClr (pecOk : Bool) (value : Byte) (s : State) : Host.Outcome State Fault Refusal :=
  onDev true (fun d =>
    let d := smReply pecOk [] d
    if d.pwr.smbus.isSome && value == 1 then { d with pwr := { d.pwr with alert := d.pwr.throttling != 0 } } else d) s

/-- RESTART: a pulse on MRST_N. -/
def execSmRestart (pecOk : Bool) (value : Byte) (s : State) : Host.Outcome State Fault Refusal :=
  onDev true (fun d =>
    let d := smReply pecOk [] d
    if d.pwr.smbus.isSome && value == 0xA5 then pulse d else d) s

end Sys2Proof.Machine
end

