-- ==== Sys2Proof/Machine/Pier.lean ====
section
/-!
DEFINITION. The pier mailbox (21 R537 to R539) and its commands: image loads (18 R463), enrolment and rollback (R459,
R461), debug unlock (R468 to R470), removal (R473), field scans (19 R494), hang records (R504 to R506), trace reads (20
R524), the map-out list (10 R251), HBM test mode and margining (R253 to R255). A command acts when it is written and ends
with MBOX_COMMAND_END.
-/

namespace Sys2Proof.Machine

/-! ### Results and the buffer -/

def mboxOk : Nat := 0
def mboxBusyRes : Nat := 1
def mboxRefused : Nat := 2
def mboxBadCmd : Nat := 3
def mboxFail : Nat := 4

/-- The codes of R538, and those of config-hold. -/
def mboxKnown (code : Nat) : Bool := decide (1 ≤ code) && decide (code ≤ 0x13)
def mboxInHold (code : Nat) : Bool := [1, 2, 3, 4, 0x0D, 0x0E, 0x0F, 0x11].contains code

/-- Bytes of the mailbox buffer. -/
def mboxIn (d : Dev) (n : Nat) : List Byte := readMem d true d.pier.mboxBuf n

/-- A command's answer: result, bytes placed in the buffer, and the module; none of the two where the module resets. -/
abbrev Answer := Option (Nat × Nat) × Dev

def answer (result : Nat) (d : Dev) : Answer := (some (result, 0), d)

/-- An answer with bytes for the buffer. -/
def answerWith (bs : List Byte) (d : Dev) : Answer := (some (mboxOk, bs.length), hostPut d.pier.mboxBuf bs d)

/-- Whether any context exists. -/
def ctxExists (d : Dev) : Bool := d.ctxs.any (fun p => p.2.state != .free)

/-! ### Image loads (R463) -/

/-- An image command refused, with an IMG_LOAD record: 1 format, 2 signature or digest, 3 rollback, 4 order, 5 length. -/
def imgRefused (code offset cause result : Nat) (d : Dev) : Answer :=
  answer result (raiseFields imgLoad unitPier none [(code, 8), (offset, 48), (cause, 8)] d)

/-- The slot of a kind. -/
def slotOf (fl : Flash) (kind : Nat) : Slot := if kind = 1 then fl.firmware else fl.options

def setSlot (kind : Nat) (s : Slot) (fl : Flash) : Flash :=
  if kind = 1 then { fl with firmware := s } else { fl with options := s }

def imgBegin (f : Fuse) (d : Dev) : Answer :=
  let h := mboxIn d 128
  let kind := imgKind h
  if d.pier.img.isSome then answer mboxBusyRes d
  else if !([1, 2].contains kind && imgForm kind h) then imgRefused 1 0 1 mboxRefused d
  else if (kind == 2 && !ownerKeyOk f d.flash.ownerKey) || !imgSig f d.flash.ownerKey kind h then imgRefused 1 0 2 mboxRefused d
  else if imgSvn h < rbCounter f kind then imgRefused 1 0 3 mboxRefused d
  else
    answer mboxOk { d with
      flash := setSlot kind { header := h } d.flash
      pier := { d.pier with img := some (kind, h, 0) } }

def imgData (d : Dev) : Answer :=
  let off := d.pier.arg0
  let n := d.pier.arg1
  match d.pier.img with
  | none => imgRefused 2 off 4 mboxRefused d
  | some (kind, h, next) =>
    if off ≠ next then imgRefused 2 off 4 mboxRefused d
    else if 65536 < n ∨ imgLength h < off + n then imgRefused 2 off 5 mboxRefused d
    else
      let s := slotOf d.flash kind
      answer mboxOk { d with
        flash := setSlot kind { s with body := s.body ++ mboxIn d n } d.flash
        pier := { d.pier with img := some (kind, h, next + n) } }

def imgCommit (f : Fuse) (d : Dev) : Answer :=
  match d.pier.img with
  | none => imgRefused 3 0 4 mboxRefused d
  | some (kind, h, next) =>
    let d := { d with pier := { d.pier with img := none } }
    let s := slotOf d.flash kind
    if imgSig f d.flash.ownerKey kind s.header && imgDigest h s.body then answer mboxOk d
    else imgRefused 3 next 2 mboxFail d

/-! ### Fuses (R459, R461) -/

/-- Whether OWNER_ENROL is carried out. -/
def enrols (f : Fuse) : Bool := f.ownerDigest.isNone

def ownerEnrol (f : Fuse) (d : Dev) : Answer :=
  if enrols f then answer mboxOk { d with flash := { d.flash with ownerKey := mboxIn d 64 } } else answer mboxRefused d

/-- The counter of a kind after ROLLBACK_ADVANCE: the security version that runs, and never lower than it was. -/
def advanced (f : Fuse) (d : Dev) (kind : Nat) : Nat :=
  max (rbCounter f kind) (imgSvn (if kind = 1 then d.run.fwHeader else d.run.optHeader))

def rollbackAdvance (f : Fuse) (d : Dev) : Answer :=
  let kind := d.pier.arg0
  if kind ≠ 1 ∧ kind ≠ 2 then answer mboxRefused d
  else if advanced f d kind = rbCounter f kind then answer mboxOk d
  else answer mboxOk
    (raiseFields rollbackCls unitPier none [(kind, 8), (rbCounter f kind, 8), (advanced f d kind, 8)] d)

/-- The fuses after a mailbox command that is carried out. -/
def mboxFuse (code : Nat) (f : Fuse) (d : Dev) : Fuse :=
  if code = 5 then (if enrols f then { f with ownerDigest := some (Config.sm3 (mboxIn d 64)) } else f)
  else if code = 6 then
    (if d.pier.arg0 = 1 then { f with rbFirmware := advanced f d 1 }
     else if d.pier.arg0 = 2 then { f with rbConfig := advanced f d 2 } else f)
  else f

/-! ### Debug unlock (R468 to R470) -/

def dbgNonce (d : Dev) : Answer :=
  let r := drawNat d
  let n : BitVec 128 := BitVec.ofNat 128 r.1
  answerWith (leBytes 16 n.toNat) { r.2 with pier := { r.2.pier with nonce := some n } }

/-- Whether a token unlocks. -/
def tokenOk (f : Fuse) (d : Dev) (t : List Byte) : Bool :=
  let level := bitsOf (leAt t 0x18 1) 1 0
  let owner := bitOf (leAt t 0x18 1) 2
  let key := if owner then d.flash.ownerKey else debugKeyBytes
  leAt t 0 8 == f.serial.toNat
    && d.pier.nonce == some (BitVec.ofNat 128 (leAt t 8 16))
    && (!owner || (f.ownerDigest.isSome && ownerKeyOk f key))
    && Config.sm2Verify key (Config.sm3 (t.take 0x20)) ((t.drop 0x20).take 64)
    && decide (d.pier.debug < level)
    && decide (level ≤ (if owner then f.dbgLimitOwner else f.dbgLimitHolsever))

/-- What precedes levels 2 and 3: every context destroyed; bench, joist memory, deck and HBM zeroed. -/
def wipeData (d : Dev) : Dev :=
  let d := decksLost (d.ctxs.foldl (fun d (p : Nat × Ctx) => if p.2.state = .free then d else destroyCtx p.1 d) d)
  { d with
    bench := [], benchPoison := [], joist := [], hbm := [], hbmPoison := []
    deck := { d.deck with lines := [] } }

def dbgUnlock (f : Fuse) (d : Dev) : Answer :=
  let t := mboxIn d 96
  let level := bitsOf (leAt t 0x18 1) 1 0
  let ok := tokenOk f d t
  let d := { d with pier := { d.pier with nonce := none } }
  if !ok then answer mboxRefused d
  else
    let d := if 2 ≤ level then wipeData d else d
    let dg := Config.sm3 t
    let d := { d with pier := { d.pier with
      debug := level, tokenDigest := dg, badCreate := d.pier.badCreate || level == 3 } }
    let v := packFields [(level, 2), (bit01 (bitOf (leAt t 0x18 1) 2), 1), (dg.toNat, 256)]
    answer mboxOk (raiseRec { cls := debugUnlock, kind := kindOf debugUnlock, unit := unitPier, addr := v % 2 ^ 64,
                              detail := v / 2 ^ 64 % 2 ^ 192, exts := [v / 2 ^ 256] } d)

/-! ### Removal (R473) -/

def quiesce (d : Dev) : Answer :=
  if ctxExists d then answer mboxBusyRes d
  else
    let d := { d with pier := { d.pier with img := none } }
    let d := (List.range 18).foldl (fun d p => leaveLink p .dark causeReset d) d
    let d := attnSet 11 { d with pier := { d.pier with removeReady := true } }
    let d := hostLinkFalls { d with
      pwr := { d.pwr with phase := .quiesced }, hostp := { d.hostp with memActive := false }, resets := [] }
    answer mboxOk d

/-! ### Field scans (R494) -/

/-- Whether a core can be scanned: present, and not on the offline list. -/
def scannable (f : Fuse) (d : Dev) (c : Nat) : Bool := f.harvest.getLsbD c && !d.run.sec.offline.getLsbD c

/-- The next core of the rotation. -/
def nextScan (f : Fuse) (d : Dev) : Option Nat :=
  ((List.range 160).map (fun i => (d.run.sec.scanPtr + 1 + i) % 160)).find? (scannable f d)

def scanNext (f : Fuse) (d : Dev) : Answer :=
  if d.pier.scan.isSome then answer mboxBusyRes d
  else
    match nextScan f d with
    | none => answer mboxFail d
    | some c =>
      let d := saveSection (fun s => { s with scanPtr := c }) d
      answerWith (leBytes 8 c) { d with pier := { d.pier with scan := some (c, true) } }

def scanCore (f : Fuse) (d : Dev) : Answer :=
  let c := d.pier.arg0
  if d.pier.scan.isSome then answer mboxBusyRes d
  else if !scannable f d c then answer mboxRefused d
  else answer mboxOk { d with pier := { d.pier with scan := some (c, true) } }

def scanStatus (f : Fuse) (d : Dev) : Answer :=
  let c := d.pier.arg0
  if !f.harvest.getLsbD c then answer mboxRefused d
  else
    let t := mapGet 0 d.pier.scanTimes c
    answerWith (leBytes 8 (t / 65536) ++ leBytes 8 (t % 65536)) d

/-- The 64 bytes of a trace record. -/
def traceBytes (r : TraceRec) : List Byte :=
  let loop := fun i => r.loops.getD i 0
  leBytes 8 (packFields [(r.tag.toNat, 32), (r.queue, 2), (r.event, 2), (r.ctx, 12), (r.kt % 65536, 16)])
    ++ leBytes 8 (r.kt / 65536) ++ leBytes 8 r.count.toNat
    ++ leBytes 8 (packFields [(loop 0, 24), (loop 1, 24)]) ++ leBytes 8 (packFields [(loop 2, 24), (loop 3, 24)])
    ++ leBytes 8 r.zstep.toNat ++ leBytes 16 0

/-! ### Hang records (R504 to R506) -/

/-- The body of a section: its content in a layout that is not given, short enough for 209 sections in 1 MiB (R504, R505).
Log entry 42. -/
def sectionBody (unit : Nat) (content : List Nat) : List Byte := (Config.hangLayout unit content).take 5000

/-- The bytes of a section: its head and its body. -/
def sectionBytes (x : HangSec) : List Byte :=
  leBytes 8 (packFields [(x.unit, 16), (x.status, 2), (0, 14), (x.len, 32)]) ++ leBytes 8 x.time
    ++ (if x.status = 0 then sectionBody x.unit x.content else [])

/-- The bytes of a hang record. -/
def hangBytes (missed : Nat) (h : HangRec) : List Byte :=
  let body := h.sections.flatMap sectionBytes
  leBytes 8 (packFields [(1, 8), (h.cause, 2), (h.level, 2), (0, 4), (h.ctx, 12)])
    ++ leBytes 8 h.start ++ leBytes 8 h.stop
    ++ leBytes 8 (packFields [(h.sections.length, 16), ((h.sections.filter (fun x => x.status == 1)).length, 16), (missed, 32)])
    ++ leBytes 8 (packFields [(64 + body.length, 32), (h.trigger.toNat, 32)])
    ++ leBytes 24 0 ++ body

def hangTake (d : Dev) : Answer :=
  if hangFree d then answer mboxOk (hangTrigger 0 0 d) else answer mboxBusyRes (hangTrigger 0 0 d)

def hangRead (d : Dev) : Answer :=
  match d.pier.hang with
  | none => answer mboxRefused d
  | some h =>
    if 65536 < d.pier.arg1 then answer mboxRefused d
    else answerWith (((hangBytes d.pier.hangMissed h).drop d.pier.arg0).take d.pier.arg1) d

def hangRelease (d : Dev) : Answer := answer mboxOk { d with pier := { d.pier with hang := none, hangMissed := 0 } }

/-- The units of a hang record's sections, in order. -/
def hangUnits (f : Fuse) : List Nat :=
  ((List.range 160).filter (fun c => f.harvest.getLsbD c)).map unitCore
    ++ (List.range 20).map unitCluster
    ++ (List.range 8).map (fun s => unitHbm (16 * s))
    ++ (List.range 18).map unitPort
    ++ [unitHost, unitKeystone, unitTable]

/-- A number that may be absent. -/
def orZero (x : Option Nat) : Nat := match x with | some n => n + 1 | none => 0

/-- What a core's section holds of a queue (R200, R506). -/
def hangQueue (d : Dev) (core q : Nat) : List Nat :=
  let s := queueAt d core q
  [s.pc, (headTag s).toNat] ++ (List.range 4).map (fun i => (loopIndexes s.loops).getD i 0) ++ [s.count.toNat] ++ s.clampNo
    ++ [awaitedEntries d (core / 8) ((coreAt d core).resident.getD 0) s]

/-- What a core's section holds: from level 1 on, the last 4 KiB of the trace buffer as well. -/
def hangCore (level : Nat) (d : Dev) (core : Nat) : List Nat :=
  orZero (coreAt d core).resident :: (List.range 4).flatMap (hangQueue d core)
    ++ (if level = 0 then [] else (((coreAt d core).trace.take 64).reverse).map (fun r => ofLe (traceBytes r)))

/-- What a cluster's section holds: channels, open glue-ups, Planer commands and retired ways. -/
def hangCluster (d : Dev) (k : Nat) : List Nat :=
  ((List.range 32).flatMap (fun i =>
    let c := chanAt d (32 * k + i)
    [(match c.run with | some r => ofLe r.desc | none => 0), c.posted.length]))
  ++ (d.glues.filter (fun g => g.core / 8 == k)).flatMap (fun g => [g.id, g.marks.length] ++ g.marks ++ [g.attempts])
  ++ (mapGet [] d.planers k).flatMap (fun j => [j.tag.toNat, j.next])
  ++ (d.deck.retired.filter (fun x => x.1 / 8192 == k)).flatMap (fun x => [x.1, x.2])

/-- What the section of an HBM stack's controller holds; every access of a step is over at its end. -/
def hangHbm (d : Dev) (stack : Nat) : List Nat :=
  (List.range 16).flatMap (fun i =>
    let ch := 16 * stack + i
    [bit01 (d.hbmc.fenced.getLsbD ch), bit01 (d.hbmc.active.contains ch), 0]) ++ [bit01 (d.hbmc.testMode.getLsbD stack)]

/-- What a port's section holds. -/
def hangPort (d : Dev) (p : Nat) : List Nat :=
  let x := portAt d p
  [linkNo x.state, if x.half then 8 else 16] ++ (List.range 6).map (fun v => (credits x v).toNat)
    ++ [nowNs d / 128 % 4096, x.egress.length]

/-- A staged change. -/
def hangChange (c : Option Change) : List Nat :=
  match c with
  | some c => [1, c.count, c.staged.length, c.t]
  | none => [0]

/-- What the section of a unit holds (R506). -/
def hangContent (level : Nat) (d : Dev) (u : Nat) : List Nat :=
  let i := unitIdx u
  match unitType u with
  | 1 => hangCore level d i
  | 4 => hangCluster d i
  | 7 => hangHbm d (i / 16)
  | 8 => hangPort d i
  | 9 => bit01 d.hostp.link :: d.hostp.rings.flatMap (fun r => [r.1, r.2.sqHead.toNat, r.2.cqHead.toNat])
  | 11 => [ktStateNo d.kt.state, orZero d.kt.parent, ktErrPs d]
  | _ => hangChange d.tab.ttChange ++ hangChange d.tab.rtChange

/-- Adds the section of a unit: one under reset is unreachable, any other is complete. -/
def addSection (h : HangRec) (d : Dev) (u : Nat) : HangRec × Dev :=
  if d.resets.any (fun j => j.domain < 4 && (j.unit.toNat == u || encloses j.domain j.unit.toNat 1 u
      || encloses j.domain j.unit.toNat 2 u)) then
    ({ h with sections := h.sections ++ [{ unit := u, status := 1, len := 0, time := nowNs d }] }, d)
  else
    let c := hangContent h.level d u
    ({ h with sections := h.sections ++
        [{ unit := u, status := 0, len := (sectionBody u c).length, time := nowNs d, content := c }] }, d)

/-- HANG_RECORD_DONE: the record is stored, HANG_READY raised, and a module reset that waited for it starts (R504). -/
def hangDone (f : Fuse) (d : Dev) : Dev :=
  match d.pier.hangBusy with
  | none => d
  | some h =>
    let r := (hangUnits f).foldl (fun r u => addSection r.1 r.2 u) (h, d)
    let d := r.2
    let d := { d with pier := { d.pier with hang := some { r.1 with stop := nowNs d }, hangBusy := none } }
    let d := raise hangReady unitPier none 0 0 d
    if d.resets.any (fun j => j.domain == 7) then moduleReset false d else d

def execHangRecordDone (s : State) : Host.Outcome State Fault Refusal := onFuse true hangDone s

/-! ### Trace buffers (R522 to R524) -/

/-- TRACE_READ: eight bytes with the index of the oldest record, then whole records from the offset on, oldest first. -/
def traceRead (f : Fuse) (d : Dev) : Answer :=
  let c := d.pier.arg0
  if d.pier.debug = 0 || !f.harvest.getLsbD c then answer mboxRefused d
  else
    let rs := (((coreAt d c).trace.reverse).drop (d.pier.arg1 / 64)).take 1023
    answerWith (leBytes 8 0 ++ rs.flatMap traceBytes) d

/-! ### HBM (R251, R253 to R255) -/

def mapoutClear (d : Dev) : Answer :=
  let ch := d.pier.arg0
  if d.hbmc.overflow.getLsbD ch then
    answer mboxOk { d with hbmc := { d.hbmc with overflow := d.hbmc.overflow &&& ~~~BitVec.twoPow 128 ch } }
  else if d.run.sec.mapout.getLsbD ch then
    answer mboxOk (saveSection (fun s => { s with cleared := s.cleared ||| BitVec.twoPow 128 ch }) d)
  else answer mboxRefused d

/-- Zeroes a stack; what the decks held of it is gone. -/
def zeroStack (s : Nat) (d : Dev) : Dev :=
  let keep := fun a => stackOf (hbmMap d.hbmc a).1 != s
  { d with
    hbm := d.hbm.filter (fun p => keep p.1), hbmPoison := d.hbmPoison.filter (fun p => keep p.1)
    deck := { d.deck with lines := d.deck.lines.filter (fun x => x.host || keep x.line) } }

def hbmTest (d : Dev) : Answer :=
  let s := d.pier.arg0
  let bit : BitVec 8 := BitVec.twoPow 8 s
  if 8 ≤ s then answer mboxRefused d
  else if ctxExists d || d.pwr.phase != .ready then answer mboxBusyRes d
  else if bitOf d.pier.arg1 0 then
    answer mboxOk { d with hbmc := { d.hbmc with testMode := d.hbmc.testMode ||| bit } }
  else if d.hbmc.testMode.getLsbD s then
    answer mboxOk (zeroStack s { d with hbmc := { d.hbmc with testMode := d.hbmc.testMode &&& ~~~bit } })
  else answer mboxOk d

/-- Pins that a margin request sweeps, none where it names none (R254). -/
def marginPins (sel index : Nat) : Option Nat :=
  match sel with
  | 0 => some 1152
  | 1 => if index < 16 then some 72 else none
  | 2 => if index < 1152 then some 1 else none
  | _ => none

/-- Whether two s8 values are a result of a pin at a voltage step: the lowest and highest passing delay steps of the sweep
from −32 to +32, or 0x7F twice where no step passes (R254, R255). -/
def marginPairOk (lo hi : Byte) : Bool :=
  (lo == 0x7F && hi == 0x7F) || (decide (-32 ≤ lo.toInt) && decide (lo.toInt ≤ hi.toInt) && decide (hi.toInt ≤ 32))

/-- The results that a sweep names, with free ones where it names none (R255). -/
def marginPairs : Nat → List Byte → Dev → List Byte × Dev
  | 0, _, d => ([], d)
  | n + 1, bs, d =>
    let given := match bs with
      | lo :: hi :: _ => if marginPairOk lo hi then some [lo, hi] else none
      | _ => none
    match given with
    | some x =>
      let r := marginPairs n (bs.drop 2) d
      (x ++ r.1, r.2)
    | none =>
      let a := drawNat d
      let b := drawNat a.2
      let lo : Int := (a.1 % 66 : Nat) - 32
      let x : List Byte :=
        if lo = 33 then [0x7F, 0x7F] else [BitVec.ofInt 8 lo, BitVec.ofInt 8 (lo + (b.1 % (33 - lo).toNat : Nat))]
      let r := marginPairs n (bs.drop 2) b.2
      (x ++ r.1, r.2)

/-- MARGIN: `sweep` is what the engine measured, two s8 values for each pin and step; what it leaves out is free. -/
def marginRun (sweep : List Byte) (d : Dev) : Answer :=
  let a := d.pier.arg0
  let lo := ofTwos 5 (bitsOf a 21 17)
  let hi := ofTwos 5 (bitsOf a 26 22)
  let beats := d.pier.arg1
  match marginPins (bitsOf a 4 3) (bitsOf a 15 5) with
  | none => answer mboxRefused d
  | some pins =>
    if !d.hbmc.testMode.getLsbD (bitsOf a 2 0) || decide (lo < -10) || decide (10 < hi) || decide (hi < lo)
        || decide (beats < 65536) || decide (2 ^ 32 < beats) then answer mboxRefused d
    else
      let r := marginPairs (pins * (hi - lo + 1).toNat) sweep d
      answerWith r.1 r.2

/-! ### The mailbox (R537 to R539) -/

/-- The effect of a command. -/
def mboxRun (code : Nat) (sweep : List Byte) (f : Fuse) (d : Dev) : Answer :=
  match code with
  | 0x01 => imgBegin f d
  | 0x02 => imgData d
  | 0x03 => imgCommit f d
  | 0x04 => (none, moduleReset false d)
  | 0x05 => ownerEnrol f d
  | 0x06 => rollbackAdvance f d
  | 0x07 => dbgNonce d
  | 0x08 => dbgUnlock f d
  | 0x09 => quiesce d
  | 0x0A => scanNext f d
  | 0x0B => scanCore f d
  | 0x0C => scanStatus f d
  | 0x0D => hangTake d
  | 0x0E => hangRead d
  | 0x0F => hangRelease d
  | 0x10 => traceRead f d
  | 0x11 => mapoutClear d
  | 0x12 => hbmTest d
  | 0x13 => marginRun sweep d
  | _ => answer mboxBadCmd d

/-- Whether a write of the command register reaches a pier that answers. -/
def mboxOpen (d : Dev) : Bool := d.hostp.link && pierRuns d

/-- Whether a command is carried out: none runs, its code is known, and config-hold admits it. -/
def mboxTakes (code : Nat) (d : Dev) : Bool :=
  mboxOpen d && d.pier.busy.isNone && mboxKnown code && (d.pwr.phase != .configHold || mboxInHold code)

/-- A command's answer waits for its end. -/
def mboxWaits (code : Nat) (r : Answer) : Dev :=
  match r.1 with
  | some (result, len) => { r.2 with pier := { r.2.pier with busy := some (code, result, len) } }
  | none => r.2

/-- A write of PIER.MBOX_CMD: the module. -/
def mboxDev (code : Nat) (sweep : List Byte) (f : Fuse) (d : Dev) : Dev :=
  if !mboxOpen d then d
  else if d.pier.busy.isSome then { d with pier := { d.pier with overrun := true } }
  else
    let d' := { d with pier := { d.pier with done := false, overrun := false } }
    if mboxTakes code d then mboxWaits code (mboxRun code sweep f d')
    else mboxWaits code (answer (if d.pwr.phase = .configHold then mboxRefused else mboxBadCmd) d')

/-- A write of PIER.MBOX_CMD: the module and its fuses. -/
def mboxWrite (code : Nat) (sweep : List Byte) (s : State) : State :=
  { s with
    fuse := if mboxTakes code s.dev then mboxFuse code s.fuse s.dev else s.fuse
    dev := mboxDev code sweep s.fuse s.dev }

def execImgBegin (s : State) : Host.Outcome State Fault Refusal := .next (mboxWrite 0x01 [] s)
def execImgData (s : State) : Host.Outcome State Fault Refusal := .next (mboxWrite 0x02 [] s)
def execImgCommit (s : State) : Host.Outcome State Fault Refusal := .next (mboxWrite 0x03 [] s)
def execModuleReset (s : State) : Host.Outcome State Fault Refusal := .next (mboxWrite 0x04 [] s)
def execOwnerEnrol (s : State) : Host.Outcome State Fault Refusal := .next (mboxWrite 0x05 [] s)
def execRollbackAdvance (s : State) : Host.Outcome State Fault Refusal := .next (mboxWrite 0x06 [] s)
def execDbgNonce (s : State) : Host.Outcome State Fault Refusal := .next (mboxWrite 0x07 [] s)
def execDbgUnlock (s : State) : Host.Outcome State Fault Refusal := .next (mboxWrite 0x08 [] s)
def execQuiesce (s : State) : Host.Outcome State Fault Refusal := .next (mboxWrite 0x09 [] s)
def execScanNext (s : State) : Host.Outcome State Fault Refusal := .next (mboxWrite 0x0A [] s)
def execScanCore (s : State) : Host.Outcome State Fault Refusal := .next (mboxWrite 0x0B [] s)
def execScanStatus (s : State) : Host.Outcome State Fault Refusal := .next (mboxWrite 0x0C [] s)
def execHangTake (s : State) : Host.Outcome State Fault Refusal := .next (mboxWrite 0x0D [] s)
def execHangRead (s : State) : Host.Outcome State Fault Refusal := .next (mboxWrite 0x0E [] s)
def execHangRelease (s : State) : Host.Outcome State Fault Refusal := .next (mboxWrite 0x0F [] s)
def execTraceRead (s : State) : Host.Outcome State Fault Refusal := .next (mboxWrite 0x10 [] s)
def execMapoutClear (s : State) : Host.Outcome State Fault Refusal := .next (mboxWrite 0x11 [] s)
def execHbmTest (s : State) : Host.Outcome State Fault Refusal := .next (mboxWrite 0x12 [] s)
def execMargin (sweep : List Byte) (s : State) : Host.Outcome State Fault Refusal := .next (mboxWrite 0x13 sweep s)
def execMboxBadcmd (code : Nat) (s : State) : Host.Outcome State Fault Refusal := .next (mboxWrite code [] s)
def execOverrun (code : Nat) (s : State) : Host.Outcome State Fault Refusal := .next (mboxWrite code [] s)

/-- MBOX_COMMAND_END: a command that waits for a scan or a hang record ends with it. -/
def mboxEnds (d : Dev) : Dev :=
  let scanning := match d.pier.scan, d.pier.busy with
    | some (_, true), some (c, _, _) => c == 0x0A || c == 0x0B
    | _, _ => false
  let taking := match d.pier.hangBusy, d.pier.busy with
    | some h, some (c, r, _) => h.cause == 0 && c == 0x0D && r == mboxOk
    | _, _ => false
  if scanning || taking then d else mboxFinish d

def execMboxCommandEnd (s : State) : Host.Outcome State Fault Refusal := onDev true mboxEnds s

end Sys2Proof.Machine
end

