-- ==== Sys2Proof/Machine/Records.lean ====
section
/-!
DEFINITION. The error ring (17 R448, 19 R479, R484, R485; 18 R477): writing, coalescing, loss and the boot log.
-/

namespace Sys2Proof.Machine

/-! ### The bytes of a record (R479, R448) -/

/-- The 64 bytes of a record in the slot of count `n`. -/
def recordBytes (rseq n log2 : Nat) (r : ErrRec) : List Byte :=
  leBytes 8 (packFields [(r.cls, 16), (r.kind, 3), (bit01 r.ctx.isSome, 1), (r.ctx.getD 0, 12), (r.unit, 16),
    (bit01 r.coalesced, 1), (r.exts.length, 3)])
  ++ leBytes 8 r.kt ++ leBytes 8 (packFields [(r.tag.toNat, 32), (r.count, 32)]) ++ leBytes 8 r.addr
  ++ leBytes 24 r.detail ++ leBytes 8 (packFields [(rseq, 32), (0, 31), (phaseOf n log2, 1)])

/-- The 64 bytes of an extension record. -/
def extBytes (n log2 : Nat) (v : Nat) : List Byte := leBytes 56 v ++ leBytes 8 (packFields [(0, 63), (phaseOf n log2, 1)])

/-- Slots that a record takes. -/
def recSlots (r : ErrRec) : Nat := 1 + r.exts.length

/-- Free slots of the ring. -/
def errFree (d : Dev) : Nat := 2 ^ d.err.log2 - (d.err.tail - d.err.head).toNat

/-- Stores 64 bytes in the slot of the next count. -/
def errSlot (bs : Nat → List Byte) (d : Dev) : Dev :=
  let n := d.err.tail.toNat
  let d := hostPut (d.err.base + 64 * (n % 2 ^ d.err.log2)) (bs n) d
  { d with err := { d.err with tail := d.err.tail + 1 } }

/-- Names the record as the trigger of the hang record (R506). -/
def hangNamed (rseq : BitVec 32) (d : Dev) : Dev :=
  { d with pier := { d.pier with
    hang := d.pier.hang.map (fun h => { h with trigger := rseq })
    hangBusy := d.pier.hangBusy.map (fun h => { h with trigger := rseq }) } }

/-- Writes a record and its extensions in consecutive slots, and sets ATTN.ERR. -/
def errPut (r : ErrRec) (d : Dev) : Dev :=
  let rseq := d.err.rseq
  let log2 := d.err.log2
  let d := errSlot (fun n => recordBytes rseq.toNat n log2 r) d
  let d := r.exts.foldl (fun d v => errSlot (fun n => extBytes n log2 v) d) d
  let d := { d with err := { d.err with rseq := rseq + 1 } }
  attnSet 1 (if r.trig then hangNamed rseq d else d)

/-! ### Loss (R485) -/

/-- A record is lost: its class's count advances and ATTN.ERR_LOST is set. -/
def errLose (r : ErrRec) (d : Dev) : Dev :=
  attnSet 2 { d with err := { d.err with
    lost := mapMod 0 r.cls (fun n => min (n + 1) (2 ^ 32 - 1)) d.err.lost
    lostNew := mapMod 0 r.cls (fun n => n + 1) d.err.lostNew } }

/-- One LOST_SUMMARY record, once two slots are free: up to six classes with the number lost since the last. -/
def errSummary (d : Dev) : Dev :=
  if !d.err.en || !d.hostp.link || d.err.lostNew == [] || decide (errFree d < 2) then d
  else
    let l := d.err.lostNew.take 6
    let v := packFields (l.flatMap (fun x => [(x.1, 16), (min x.2 65535, 16)]))
    let r : ErrRec := { cls := lostSummaryCls, kind := kindOf lostSummaryCls, kt := nowNs d % 2 ^ 64, detail := v }
    errPut r { d with err := { d.err with lostNew := d.err.lostNew.drop 6 } }

def execLostSummary (s : State) : Host.Outcome State Fault Refusal := onDev true errSummary s

/-! ### Writing (R448, R425) -/

/-- A record reaches the ring, or is lost where it is disabled or has too few free slots. -/
def errRing (r : ErrRec) (d : Dev) : Dev :=
  let d := errSummary d
  if !d.err.en || decide (errFree d < recSlots r) then errLose r d else errPut r d

/-- Records that the I/O-die buffer held while the link was down reach the ring first. -/
def errHeld (d : Dev) : Dev :=
  let l := d.err.ioHeld
  l.foldl (fun d r => errRing r d) { d with err := { d.err with ioHeld := [] } }

/-- Writes a record: with the link down it waits in the I/O-die buffer of 256 records. -/
def errWrite (r : ErrRec) (d : Dev) : Dev :=
  if !d.hostp.link then
    let n := (d.err.ioHeld.map recSlots).sum
    if 256 < n + recSlots r then errLose r d else { d with err := { d.err with ioHeld := d.err.ioHeld ++ [r] } }
  else errRing r (errHeld d)

/-! ### Coalescing (R484) -/

/-- Whether a run takes no further record at a time. -/
def runOver (coalMs t : Nat) (x : Run) : Bool :=
  decide (x.last + coalMs * 1000000 ≤ t) || decide (x.start + 1000000000 ≤ t)

/-- The record that closes a run, if anything folded. -/
def runClosed (x : Run) (d : Dev) : Dev :=
  if x.folded = 0 then d
  else errWrite { x.latest with coalesced := true, count := x.folded, trig := false } d

/-- Closes the runs whose time is over. -/
def closeRuns (t : Nat) (d : Dev) : Dev :=
  let exceeded := d.err.runs.filter (runOver d.err.coalMs t)
  let d := { d with err := { d.err with runs := d.err.runs.filter (fun x => !runOver d.err.coalMs t x) } }
  exceeded.foldl (fun d x => runClosed x d) d

def execCoalesceClose (s : State) : Host.Outcome State Fault Refusal :=
  onDev true (fun d => closeRuns (nowNs d) d) s

/-- A record folds into the open run of its key, opens a run, or finds none free; HARDWARE and STATE never fold. -/
def errArrive (r : ErrRec) (d : Dev) : Dev :=
  if r.kind = 3 ∨ r.kind = 5 then errWrite r d
  else
    let d := closeRuns r.kt d
    let key := fun (x : Run) => x.cls == r.cls && x.ctx == r.ctx
    if d.err.runs.any key then
      { d with err := { d.err with runs := d.err.runs.map (fun x =>
        if key x then { x with last := r.kt, folded := x.folded + 1, latest := r } else x) } }
    else if d.err.runs.length < 256 then
      errWrite r { d with err := { d.err with
        runs := d.err.runs ++ [{ cls := r.cls, ctx := r.ctx, start := r.kt, last := r.kt, latest := r }] } }
    else errWrite r d

/-! ### The boot log (R477) -/

/-- A record before the ring is first enabled: 32 are kept. -/
def bootTake (r : ErrRec) (d : Dev) : Dev :=
  if d.err.boot.length < 32 then { d with err := { d.err with boot := d.err.boot ++ [r] } }
  else { d with err := { d.err with bootLost := d.err.bootLost + 1 } }

/-- The boot log goes to the ring, oldest first, and is emptied; the records that it could not keep are reported under
class code 0. -/
def bootFlush (d : Dev) : Dev :=
  let l := d.err.boot
  let n := d.err.bootLost
  let d := l.foldl (fun d r => errWrite r d) { d with err := { d.err with boot := [], bootLost := 0 } }
  errSummary { d with err := { d.err with lostNew := if n = 0 then d.err.lostNew else mapMod 0 0 (fun m => m + n) d.err.lostNew } }

/-- ERROR_RECORD: the oldest raised record goes to the ring, to the boot log before the ring is first enabled, or is lost
while the ring is disabled. What the I/O-die buffer held goes first. -/
def errNext (d : Dev) : Dev :=
  let d := if d.hostp.link then errHeld d else d
  match d.err.raised with
  | [] => d
  | r :: rs =>
    let d := { d with err := { d.err with raised := rs } }
    if d.err.en then errArrive r d
    else if d.err.everOn then errLose r d
    else bootTake r d

def execErrorRecord (s : State) : Host.Outcome State Fault Refusal := onDev true errNext s

/-- KZ_LOST (R515). -/
def execKzLost (s : State) : Host.Outcome State Fault Refusal := onDev true kzFlushLost s

end Sys2Proof.Machine
end

