-- ==== Sys2Proof/Machine/Spdm.lean ====
section
/-!
DEFINITION. The SPDM 1.2 responder on the DOE mailbox (18 R464 to R467). The spec names the requests and gives no message
bytes: `reply` holds what a response carries, and the order of requests and the error codes are those of SPDM 1.2 (log
entry 14).
-/

namespace Sys2Proof.Machine

/-! ### Replies -/

/-- Error codes of SPDM 1.2 (PRESUMED), UnsupportedRequest among them (R465). -/
def spdmInvalid : Nat := 1
def spdmUnexpected : Nat := 4
def spdmUnsupported : Nat := 7
def spdmLarge : Nat := 0x0F

/-- Bytes that one response or chunk carries at most (DESIGN CHOICE, log entry 14). -/
def spdmPiece : Nat := 1024

def spdmError (code : Nat) (d : Dev) : Dev :=
  { d with spdm := { d.spdm with error := true, errorCode := code, reply := [] } }

/-- A response; one that is too large is read with CHUNK_GET. -/
def spdmSay (bs : List Byte) (d : Dev) : Dev :=
  if bs.length ≤ spdmPiece then { d with spdm := { d.spdm with error := false, errorCode := 0, reply := bs } }
  else
    let h := (d.spdm.chunkHandle + 1) % 256
    { d with spdm := { d.spdm with
      error := true, errorCode := spdmLarge, reply := leBytes 1 h, chunkHandle := h, chunkNext := 0, chunkOut := bs } }

/-- A request that needs the negotiated algorithms. -/
def spdmAfter (ready : Dev → Bool) (run : Dev → Dev) (d : Dev) : Dev :=
  if !d.hostp.link then d else if ready d then run d else spdmError spdmUnexpected d

def spdmReady (d : Dev) : Bool := d.spdm.version && d.spdm.caps && d.spdm.algos

/-- Chain of a slot. -/
def certChain (d : Dev) (slot : Nat) : List Byte := mapGet [] d.flash.certs slot

/-! ### Requests (R465) -/

def execGetVersion (s : State) : Host.Outcome State Fault Refusal :=
  onDev true (spdmAfter (fun _ => true) (fun d =>
    spdmSay (leBytes 2 0x1200) { d with spdm := { version := true } })) s

def execGetCapabilities (s : State) : Host.Outcome State Fault Refusal :=
  onDev true (spdmAfter (fun d => d.spdm.version) (fun d =>
    spdmSay [] { d with spdm := { d.spdm with caps := true } })) s

/-- NEGOTIATE_ALGORITHMS: SM2, SM3-256 and DMTF measurement blocks only; what the requester does not offer is not
selected. -/
def execNegotiateAlgorithms (sm2 sm3 dmtf : Bool) (s : State) : Host.Outcome State Fault Refusal :=
  onDev true (spdmAfter (fun d => d.spdm.version && d.spdm.caps) (fun d =>
    spdmSay (leBytes 1 (packFields [(bit01 sm2, 1), (bit01 sm3, 1), (bit01 dmtf, 1)]))
      { d with spdm := { d.spdm with algos := sm2 && sm3 && dmtf } })) s

/-- GET_DIGESTS: the slots that hold a chain, and the digest of each. -/
def execGetDigests (s : State) : Host.Outcome State Fault Refusal :=
  onDev true (spdmAfter spdmReady (fun d =>
    let slots := (List.range 8).filter (fun i => certChain d i != [])
    spdmSay (leBytes 1 (bitMap slots) ++ slots.flatMap (fun i => sm3Bytes (certChain d i))) d)) s

/-- GET_CERTIFICATE: a portion of a chain. -/
def execGetCertificate (slot offset length : Nat) (s : State) : Host.Outcome State Fault Refusal :=
  onDev true (spdmAfter spdmReady (fun d =>
    let c := certChain d slot
    if 8 ≤ slot || c == [] || decide (c.length ≤ offset) then spdmError spdmInvalid d
    else spdmSay ((c.drop offset).take length) d)) s

/-- The module's nonce and the identity key's signature over a message. -/
def spdmSign (f : Fuse) (msg : List Byte) (d : Dev) : List Byte × Dev :=
  let r := drawBytes 32 d
  (r.1 ++ Config.sm2Sign f.identityKey (Config.sm3 (msg ++ r.1)), r.2)

/-- CHALLENGE: the digest of the slot's chain, signed with both nonces. -/
def execChallenge (slot : Nat) (nonce : BitVec 256) (s : State) : Host.Outcome State Fault Refusal :=
  onFuse true (fun f => spdmAfter spdmReady (fun d =>
    let c := certChain d slot
    if 8 ≤ slot || c == [] then spdmError spdmInvalid d
    else
      let dg := sm3Bytes c
      let r := spdmSign f (leBytes 32 nonce.toNat ++ dg) d
      spdmSay (dg ++ r.1) r.2)) s

/-- GET_MEASUREMENTS: index 0 asks for the number of blocks, 255 for all of them. -/
def execGetMeasurements (index : Nat) (sign : Bool) (nonce : BitVec 256) (s : State) : Host.Outcome State Fault Refusal :=
  onFuse true (fun f => spdmAfter spdmReady (fun d =>
    if 6 < index ∧ index ≠ 255 then spdmError spdmInvalid d
    else
      let is := if index = 255 then [1, 2, 3, 4, 5, 6] else if index = 0 then [] else [index]
      let bs := leBytes 1 (if index = 0 then 6 else is.length) ++ is.flatMap (fun i => leBytes 1 i ++ measurement f d i)
      if sign then
        let r := spdmSign f (leBytes 32 nonce.toNat ++ bs) d
        spdmSay (bs ++ r.1) r.2
      else spdmSay bs d)) s

/-- A chain is written to a slot of 1 to 7 (R464). -/
def setChain (slot : Nat) (chain : List Byte) (d : Dev) : Dev :=
  if 1 ≤ slot ∧ slot ≤ 7 then
    spdmSay [] { d with flash := { d.flash with certs := mapPut [] slot chain d.flash.certs } }
  else spdmError spdmInvalid d

def execSetCertificate (slot : Nat) (chain : List Byte) (s : State) : Host.Outcome State Fault Refusal :=
  onDev true (spdmAfter spdmReady (setChain slot chain)) s

/-- CHUNK_SEND: pieces of a large request, in order; the one request that can be large is SET_CERTIFICATE. -/
def chunkTake (handle seqNo : Nat) (last : Bool) (bytes : List Byte) (d : Dev) : Dev :=
  let p := d.spdm
  if seqNo ≠ 0 ∧ (p.chunkHandle ≠ handle ∨ p.chunkNext ≠ seqNo) then spdmError spdmInvalid d
  else
    let all := (if seqNo = 0 then [] else p.chunkIn) ++ bytes
    if !last then
      spdmSay [] { d with spdm := { p with chunkHandle := handle, chunkNext := seqNo + 1, chunkIn := all } }
    else
      let d := { d with spdm := { p with chunkHandle := handle, chunkNext := 0, chunkIn := [] } }
      if leAt all 1 1 = 0xEE then setChain (leAt all 2 1 % 16) (all.drop 4) d else spdmError spdmUnsupported d

def execChunkSend (handle seqNo : Nat) (last : Bool) (bytes : List Byte) (s : State) : Host.Outcome State Fault Refusal :=
  onDev true (spdmAfter spdmReady (chunkTake handle seqNo last bytes)) s

/-- CHUNK_GET: the next piece of a large response. -/
def chunkGive (handle seqNo : Nat) (d : Dev) : Dev :=
  let p := d.spdm
  if p.chunkOut = [] ∨ p.chunkHandle ≠ handle ∨ p.chunkNext ≠ seqNo then spdmError spdmInvalid d
  else
    { d with spdm := { p with
      error := false, errorCode := 0, reply := p.chunkOut.take spdmPiece, chunkNext := seqNo + 1
      chunkOut := p.chunkOut.drop spdmPiece } }

def execChunkGet (handle seqNo : Nat) (s : State) : Host.Outcome State Fault Refusal :=
  onDev true (spdmAfter spdmReady (chunkGive handle seqNo)) s

/-- A request of any other kind (R465). -/
def execUnsupportedRequest (code : Nat) (s : State) : Host.Outcome State Fault Refusal :=
  onDev true (spdmAfter (fun _ => true) (fun d => { d with spdm := { d.spdm with
    error := true, errorCode := spdmUnsupported, reply := leBytes 1 code } })) s

end Sys2Proof.Machine
end

