-- ==== Sys2Proof/Machine/Registers.lean ====
section
/-!
DEFINITION. Writes and reads of BAR0 (21 R525 to R540).
-/

namespace Sys2Proof.Machine

/-! ### HBM fence, attention and keystone readout (R530, R533, R534) -/

/-- A write of HBM.FENCE_GO. -/
def fenceWritten (v : Nat) (d : Dev) : Dev :=
  if regsOpen d && bitOf v 7 then fenceChannel (v % 128) fenceHost d else d

def execHbmFenceGo (value : BitVec 48) (s : State) : Host.Outcome State Fault Refusal :=
  onDev true (fenceWritten value.toNat) s

/-- A write of ATTN.CLEAR. -/
def attnCleared (v : Nat) (d : Dev) : Dev :=
  if d.hostp.link then { d with attn := { d.attn with raw := d.attn.raw &&& ~~~BitVec.ofNat 12 v } } else d

def execAttnClear (value : BitVec 48) (s : State) : Host.Outcome State Fault Refusal :=
  onDev true (attnCleared value.toNat) s

/-- A write of ATTN.MASK: each held bit that it unmasks advances ATTN.SEQ (R446). -/
def attnMasked (v : Nat) (d : Dev) : Dev :=
  let m : BitVec 12 := BitVec.ofNat 12 v
  let shown := popCount 12 (m &&& ~~~d.attn.mask &&& d.attn.raw).toNat
  { d with attn := { d.attn with mask := m, seqNo := d.attn.seqNo + BitVec.ofNat 4 shown } }

/-- A 64-bit read reply: the attention word above the field (R13, R525). -/
def regWord (d : Dev) (v : Nat) : BitVec 64 := BitVec.ofNat 64 (attnWord d.attn * 2 ^ 48 + v % 2 ^ 48)

/-! ### What registers read as (R11, R12, R525 to R540) -/

/-- Word `i` of a bitmap, 48 bits of it. -/
def mapWord (m i : Nat) : Nat := bitsOf m (48 * i + 47) (48 * i)

/-- Word `i` of a bitmap whose first word lies at `lo`. -/
def mapAt (m lo off : Nat) : Nat := mapWord m ((off - lo) / 8)

/-- The identity block (R1, R3, R528). -/
def idRead (f : Fuse) (d : Dev) (off : Nat) : Nat :=
  if off = 0x00 then packFields [(0x0707, 16), (0xB0, 8), (bit01 (idHarvest f), 1), (0, 7), (0x07, 8), (0x01, 8)]
  else if off = 0x08 then f.serial.toNat % 2 ^ 48
  else if off = 0x10 then f.serial.toNat / 2 ^ 48
  else if off = 0x18 then packFields [(d.tab.modid, 16), (bit01 d.tab.modidValid, 1)]
  else if off = 0x20 then d.tab.hall
  else if within off 0x28 0x20 then mapAt f.harvest.toNat 0x28 off
  else if within off 0x48 0x20 then mapAt d.run.sec.offline.toNat 0x48 off
  else if off = 0x68 then packFields [(d.hbmc.active.length, 8), (bit01 d.hbmc.die, 1), (0, 7), (d.hbmc.fencedCount, 8)]
  else if off = 0x70 then hbmSpan d.hbmc
  else if within off 0x78 0x18 then mapAt d.run.sec.mapout.toNat 0x78 off
  else if within off 0x90 0x18 then mapAt d.hbmc.fenced.toNat 0x90 off
  else if off = 0xA8 then packFields [(4096, 13), (16384, 15), (640, 10)]
  else 0

/-- The host set-up block (R529). -/
def setupRead (d : Dev) (off : Nat) : Nat :=
  match off with
  | 0x1000 => d.hostp.ctxTable
  | 0x1008 => d.hostp.ringDir
  | 0x1010 => bit01 d.hostp.adminEn
  | 0x1018 => d.hostp.hdmBase
  | 0x1020 => d.hostp.hdmSize
  | 0x1028 => packFields [(d.pwr.cap, 11), (0, 5), (bit01 d.pwr.coord, 1)]
  | 0x1030 => packFields [(d.pwr.watts, 11), (0, 5), (bit01 d.pwr.fellBack, 1)]
  | 0x1038 => packFields [(0, 40), (bit01 (d.resets.any (fun j => j.fromReg)), 1)]
  | _ => 0

/-- The error ring and the lost-record counts (R531, R532). -/
def errRead (d : Dev) (off : Nat) : Nat :=
  if off = 0x2000 then d.err.base
  else if off = 0x2008 then packFields [(bit01 d.err.en, 1), (0, 7), (d.err.log2, 5), (0, 3), (d.err.coalMs, 10)]
  else if off = 0x2010 then d.err.head.toNat
  else if off = 0x2018 then d.err.tail.toNat
  else if 0x3000 ≤ off then
    let i := (off - 0x3000) / 8
    mapGet 0 d.err.lost (i / 32 * 256 + i % 32)
  else 0

/-- The attention block (R533). -/
def attnRead (d : Dev) (off : Nat) : Nat :=
  match off with
  | 0x4000 => d.attn.raw.toNat
  | 0x4008 => d.attn.mask.toNat
  | 0x4010 => (d.attn.raw &&& d.attn.mask).toNat
  | _ => 0

/-- The keystone block (R534). -/
def ktBlockRead (serial : BitVec 64) (d : Dev) (off : Nat) : Nat :=
  let o := ownOffer serial d
  match off with
  | 0x5000 => nowNs d
  | 0x5008 => packFields [(d.kt.readHiNs.toNat, 16), (d.kt.readHiFrac.toNat, 16)]
  | 0x5010 => packFields [(ktStateNo d.kt.state, 3), (d.kt.parent.getD 31, 5), (o.hops, 5), (0, 3), (o.errPs, 32)]
  | 0x5018 => packFields [(if o.rootIdValid then o.rootId else 0, 16), (o.prio, 8)]
  | 0x5020 => d.kt.launchLead
  | 0x5028 => d.kt.lateLaunches
  | _ => 0

/-- The capture block (R536). -/
def kzRead (d : Dev) (off : Nat) : Nat :=
  match off with
  | 0x6000 => packFields [(bit01 d.kz.en, 1), (bit01 d.kz.admin, 1), (bit01 d.kz.pkt, 1), (bit01 d.kz.hostMem, 1), (0, 4),
      (d.kz.log2, 5)]
  | 0x6008 => d.kz.base
  | 0x6010 => d.kz.select
  | 0x6018 => d.kz.head.toNat
  | 0x6020 => d.kz.tail.toNat
  | 0x6028 => d.kz.lost
  | _ => 0

/-- The pier block (R537). -/
def pierRead (d : Dev) (off : Nat) : Nat :=
  match off with
  | 0x7000 => packFields [(d.pier.hold, 8), (bit01 d.pier.removeReady, 1), (d.pier.debug, 2)]
  | 0x7008 => d.pier.mboxBuf
  | 0x7010 => d.pier.arg0
  | 0x7018 => d.pier.arg1
  | 0x7028 => packFields [(bit01 d.pier.busy.isSome, 1), (bit01 d.pier.done, 1), (bit01 d.pier.overrun, 1), (0, 5),
      (d.pier.result, 8), (d.pier.length, 32)]
  | _ => 0

/-- The fabric-manager block (R540). -/
def fmRead (d : Dev) (off : Nat) : Nat :=
  match off with
  | 0x7800 => d.pier.fmBuf
  | 0x7810 => packFields [(bit01 (d.pier.fmBusy != []), 1), (bit01 d.pier.fmDone, 1), (bit01 d.pier.fmOverrun, 1)]
  | _ => 0

/-- Bits [47:0] of a BAR0 register: current values, zero of write-only and reserved fields, of an offset that names nothing
and, in config-hold, of every block that does not answer there (R11, R12, R525, R526). -/
def regValue (f : Fuse) (d : Dev) (off : Nat) : Nat :=
  if off < 0x1000 then idRead f d off
  else if within off 0x4000 0x1000 then attnRead d off
  else if within off 0x7000 0x800 then pierRead d off
  else if d.pwr.phase = .configHold then 0
  else if off < 0x2000 then setupRead d off
  else if off < 0x4000 then errRead d off
  else if off < 0x6000 then ktBlockRead f.serial d off
  else if off < 0x7000 then kzRead d off
  else if off < 0x8000 then fmRead d off
  else 0

/-- The reply to a read of a BAR0 register, the attention word in its upper bits (R13, R525). -/
def regRead (f : Fuse) (d : Dev) (off : Nat) : BitVec 64 := regWord d (regValue f d off)

/-- A read of fewer bytes returns the addressed bytes of the whole reply (R525). -/
def regReadBytes (f : Fuse) (d : Dev) (off n : Nat) : List Byte :=
  ((leBytes 8 (regRead f d (off / 8 * 8)).toNat).drop (off % 8)).take n

/-- A read of KT.READ_LO, which latches the other half unless its block does not answer (R526, R534). -/
def ktRead (f : Fuse) (d : Dev) : Dev :=
  if !d.hostp.link then d
  else
    let d' := { d with hostp := { d.hostp with regReply := regRead f d 0x5000 } }
    if d.pwr.phase = .configHold then d'
    else
      { d' with kt := { d.kt with
        readHiNs := BitVec.ofNat 16 (nowNs d / 2 ^ 48), readHiFrac := BitVec.ofNat 16 d.kt.now } }

def execKtReadLo (s : State) : Host.Outcome State Fault Refusal := onFuse true ktRead s

/-! ### Admin ring (R429, R432) -/

/-- A write of HOST.ADMIN_EN. -/
def adminWritten (v : Nat) (d : Dev) : Dev :=
  let on := bitOf v 0
  if !regsOpen d || on == d.hostp.adminEn then d
  else
    let d := { d with hostp := { d.hostp with adminEn := on } }
    if on then installRing adminRing d
    else
      let r := ringAt d adminRing
      if r.comps == [] && r.taken == [] && !ringBusy d adminRing then dropRing adminRing d
      else modRing adminRing (fun r => { r with drop := true }) d

def execAdminEn (value : BitVec 48) (s : State) : Host.Outcome State Fault Refusal :=
  onDev true (adminWritten value.toNat) s

/-! ### Error ring (R531) -/

/-- A value kept within limits. -/
def clampTo (lo hi v : Nat) : Nat := max lo (min hi v)

/-- A write of ERR.EN, ERR.LOG2 and ERR.COAL_MS. The ring's first enabling writes the boot log (R477). -/
def errWritten (v : Nat) (d : Dev) : Dev :=
  if !regsOpen d then d
  else
    let on := bitOf v 0
    let was := d.err.en
    let first := on && !was && !d.err.everOn
    let d := { d with err := { d.err with
      en := on
      log2 := if was then d.err.log2 else clampTo 6 20 (bitsOf v 12 8)
      coalMs := clampTo 1 1000 (bitsOf v 25 16)
      everOn := d.err.everOn || on } }
    if first then bootFlush d else d

def execErrEn (value : BitVec 48) (s : State) : Host.Outcome State Fault Refusal := onDev true (errWritten value.toNat) s

/-! ### Capture (R513, R515) -/

/-- The first four bytes of the bitmap's digest. -/
def bitmapDigest (bs : List Byte) : Nat := leAt (sm3Bytes bs) 0 4

/-- A write of KZ.EN, its companions and KZ.LOG2; the companions are read when KZ.EN rises, and START and STOP records
are written. -/
def kzWritten (v : Nat) (d : Dev) : Dev :=
  if !regsOpen d then d
  else
    let on := bitOf v 0
    if d.kz.en then
      if on then d
      else
        let d := kzRecord 8 0 (bitmapDigest d.kz.bitmap) 0 [] d
        { d with kz := { d.kz with en := false } }
    else
      let d := { d with kz := { d.kz with
        en := on, admin := bitOf v 1, pkt := bitOf v 2, hostMem := bitOf v 3, log2 := clampTo 10 26 (bitsOf v 12 8) } }
      if on then
        let d := { d with kz := { d.kz with bitmap := readMem d true d.kz.select 512 } }
        kzRecord 8 0 (bitmapDigest d.kz.bitmap) 1 [] d
      else d

def execKzEn (value : BitVec 48) (s : State) : Host.Outcome State Fault Refusal := onDev true (kzWritten value.toNat) s

/-! ### The other registers (R525 to R540) -/

/-- A write of PWR.CAP and PWR.MODE (R529). -/
def pwrWritten (v : Nat) (d : Dev) : Dev :=
  let coord := bitOf v 16
  { d with pwr := { d.pwr with
    cap := clampTo 600 1650 (bitsOf v 10 0), coord := coord, fellBack := d.pwr.fellBack && !coord } }

/-- A write of RST (R529, R530). -/
def rstWritten (v : Nat) (f : Fuse) (d : Dev) : Dev :=
  let domain := bitsOf v 2 0
  let index := BitVec.ofNat 16 (bitsOf v 31 16)
  if domain = 4 && bitOf v 32 && index == 0 then rstWrite 4 0 f { d with pier := { d.pier with holdNext := true } }
  else rstWrite domain index f d

/-- A write of the host set-up block. -/
def setupWrite (off v : Nat) (f : Fuse) (d : Dev) : Dev :=
  let h := d.hostp
  match off with
  | 0x1000 => if ctxExists d then d else { d with hostp := { h with ctxTable := v } }
  | 0x1008 => if ctxExists d then d else { d with hostp := { h with ringDir := v } }
  | 0x1010 => adminWritten v d
  | 0x1018 => if h.hdmCommitted then d else { d with hostp := { h with hdmBase := v } }
  | 0x1020 => if h.hdmCommitted then d else { d with hostp := { h with hdmSize := v } }
  | 0x1028 => pwrWritten v d
  | 0x1038 => rstWritten v f d
  | 0x1040 => fenceWritten v d
  | _ => d

/-- A write of the error block: the ring, and the lost-record counts (R531, R532). -/
def errBlockWrite (off v : Nat) (d : Dev) : Dev :=
  if off = 0x2000 then (if d.err.en then d else { d with err := { d.err with base := v } })
  else if off = 0x2008 then errWritten v d
  else if off = 0x2010 then { d with err := { d.err with head := BitVec.ofNat 32 v } }
  else if 0x3000 ≤ off then
    let i := (off - 0x3000) / 8
    { d with err := { d.err with lost := mapPut 0 (i / 32 * 256 + i % 32) 0 d.err.lost } }
  else d

/-- A write of the capture block. -/
def kzBlockWrite (off v : Nat) (d : Dev) : Dev :=
  match off with
  | 0x6000 => kzWritten v d
  | 0x6008 => if d.kz.en then d else { d with kz := { d.kz with base := v } }
  | 0x6010 => if d.kz.en then d else { d with kz := { d.kz with select := v } }
  | 0x6018 => { d with kz := { d.kz with head := BitVec.ofNat 32 v } }
  | _ => d

/-- A write of the pier block but for its command register. -/
def pierBlockWrite (off v : Nat) (d : Dev) : Dev :=
  match off with
  | 0x7008 => { d with pier := { d.pier with mboxBuf := v } }
  | 0x7010 => { d with pier := { d.pier with arg0 := v } }
  | 0x7018 => { d with pier := { d.pier with arg1 := v } }
  | _ => d

/-- A write of the fabric-manager block. -/
def fmBlockWrite (off v : Nat) (f : Fuse) (d : Dev) : Dev :=
  match off with
  | 0x7800 => { d with pier := { d.pier with fmBuf := v } }
  | 0x7808 => fmStart f (bitsOf v 9 0) d
  | _ => d

/-- A write of the blocks that answer in config-hold, then of the others (R526). -/
def regDev (off v : Nat) (f : Fuse) (d : Dev) : Dev :=
  if off = 0x4008 then attnMasked v d
  else if off = 0x4010 then attnCleared v d
  else if 0x7000 ≤ off ∧ off < 0x7800 then pierBlockWrite off v d
  else if !regsOpen d then d
  else if 0x1000 ≤ off ∧ off < 0x2000 then setupWrite off v f d
  else if 0x2000 ≤ off ∧ off < 0x4000 then errBlockWrite off v d
  else if 0x6000 ≤ off ∧ off < 0x7000 then kzBlockWrite off v d
  else if 0x7800 ≤ off ∧ off < 0x8000 then fmBlockWrite off v f d
  else d

/-- REGISTER_WRITE: 8 bytes at an aligned offset; any other write is ignored (R525). -/
def regWrite (off : Nat) (value : BitVec 64) (size : Nat) (s : State) : State :=
  let v := value.toNat % 2 ^ 48
  if !s.dev.hostp.link || size != 8 || off % 8 != 0 then s
  else if off = 0x7020 then mboxWrite (v % 256) [] s
  else { s with dev := regDev off v s.fuse s.dev }

def execRegisterWrite (offset : Nat) (value : BitVec 64) (size : Nat) (s : State) : Host.Outcome State Fault Refusal :=
  .next (regWrite offset value size s)

end Sys2Proof.Machine
end

