-- ==== Sys2Proof/Machine/Dispatch.lean ====
section
/-!
DEFINITION. The dispatcher: one arm per command, each one call of the command's meaning.
-/

namespace Sys2Proof.Machine

def exec (i : Instr) (s : State) : Host.Outcome State Fault Refusal :=
  match i with
  | .powerOn vin10mV => Sys2Proof.Machine.execPowerOn vin10mV s
  | .railsGood => Sys2Proof.Machine.execRailsGood s
  | .fuseRead => Sys2Proof.Machine.execFuseRead s
  | .loadAndVerify => Sys2Proof.Machine.execLoadAndVerify s
  | .dieRelease dieOk => Sys2Proof.Machine.execDieRelease dieOk s
  | .hbmTraining failed => Sys2Proof.Machine.execHbmTraining failed s
  | .hbmZeroing => Sys2Proof.Machine.execHbmZeroing s
  | .hostLinkTraining width rate cxl31 => Sys2Proof.Machine.execHostLinkTraining width rate cxl31 s
  | .fabricTraining trained => Sys2Proof.Machine.execFabricTraining trained s
  | .ready => Sys2Proof.Machine.execReady s
  | .inputLoss vin10mV => Sys2Proof.Machine.execInputLoss vin10mV s
  | .perstAssert => Sys2Proof.Machine.execPerstAssert s
  | .perstDeassert => Sys2Proof.Machine.execPerstDeassert s
  | .mrstN lowNs => Sys2Proof.Machine.execMrstN lowNs s
  | .mrstNRelease => Sys2Proof.Machine.execMrstNRelease s
  | .surpriseRemoval => Sys2Proof.Machine.execSurpriseRemoval s
  | .thermalThrottle sensor temp16 => Sys2Proof.Machine.execThermalThrottle sensor temp16 s
  | .thermalTrip sensor temp16 => Sys2Proof.Machine.execThermalTrip sensor temp16 s
  | .powerCapAdjust watts => Sys2Proof.Machine.execPowerCapAdjust watts s
  | .pwrGuard watts forNs => Sys2Proof.Machine.execPwrGuard watts forNs s
  | .ppsIn => Sys2Proof.Machine.execPpsIn s
  | .tcodeFrame bytes => Sys2Proof.Machine.execTcodeFrame bytes s
  | .extrefLoss cause => Sys2Proof.Machine.execExtrefLoss cause s
  | .ppsOut => Sys2Proof.Machine.execPpsOut s
  | .smState pecOk => Sys2Proof.Machine.execSmState pecOk s
  | .smIdent pecOk => Sys2Proof.Machine.execSmIdent pecOk s
  | .smTemps pecOk => Sys2Proof.Machine.execSmTemps pecOk s
  | .smPower pecOk => Sys2Proof.Machine.execSmPower pecOk s
  | .smVin pecOk => Sys2Proof.Machine.execSmVin pecOk s
  | .smThermal pecOk => Sys2Proof.Machine.execSmThermal pecOk s
  | .smAlertClr pecOk value => Sys2Proof.Machine.execSmAlertClr pecOk value s
  | .smRestart pecOk value => Sys2Proof.Machine.execSmRestart pecOk value s
  | .load q f => Sys2Proof.Machine.execLoad q f s
  | .gather q f => Sys2Proof.Machine.execGather q f s
  | .spanSurvey q rslot a b => Sys2Proof.Machine.execSpanSurvey q rslot a b s
  | .jrawLoad q src joistBase rows => Sys2Proof.Machine.execJrawLoad q src joistBase rows s
  | .matmul q f => Sys2Proof.Machine.execMatmul q f s
  | .spanClose q rslot share => Sys2Proof.Machine.execSpanClose q rslot share s
  | .vadd q f => Sys2Proof.Machine.execVadd q f s
  | .vsub q f => Sys2Proof.Machine.execVsub q f s
  | .vmul q f => Sys2Proof.Machine.execVmul q f s
  | .vfma q f => Sys2Proof.Machine.execVfma q f s
  | .vmin q f => Sys2Proof.Machine.execVmin q f s
  | .vmax q f => Sys2Proof.Machine.execVmax q f s
  | .vminnum q f => Sys2Proof.Machine.execVminnum q f s
  | .vmaxnum q f => Sys2Proof.Machine.execVmaxnum q f s
  | .vcmp q f => Sys2Proof.Machine.execVcmp q f s
  | .vsel q f => Sys2Proof.Machine.execVsel q f s
  | .vabs q f => Sys2Proof.Machine.execVabs q f s
  | .vneg q f => Sys2Proof.Machine.execVneg q f s
  | .vcopysign q f => Sys2Proof.Machine.execVcopysign q f s
  | .vcvt q f => Sys2Proof.Machine.execVcvt q f s
  | .vrcp q f => Sys2Proof.Machine.execVrcp q f s
  | .vrsqrt q f => Sys2Proof.Machine.execVrsqrt q f s
  | .vexp2 q f => Sys2Proof.Machine.execVexp2 q f s
  | .vlog2 q f => Sys2Proof.Machine.execVlog2 q f s
  | .vdiv q f => Sys2Proof.Machine.execVdiv q f s
  | .vsqrt q f => Sys2Proof.Machine.execVsqrt q f s
  | .viadd q f => Sys2Proof.Machine.execViadd q f s
  | .visub q f => Sys2Proof.Machine.execVisub q f s
  | .viand q f => Sys2Proof.Machine.execViand q f s
  | .vior q f => Sys2Proof.Machine.execVior q f s
  | .vixor q f => Sys2Proof.Machine.execVixor q f s
  | .vishl q f => Sys2Proof.Machine.execVishl q f s
  | .vishr q f => Sys2Proof.Machine.execVishr q f s
  | .vicmp q f => Sys2Proof.Machine.execVicmp q f s
  | .vspan q f => Sys2Proof.Machine.execVspan q f s
  | .vspanOut q f => Sys2Proof.Machine.execVspanOut q f s
  | .vredmax q f => Sys2Proof.Machine.execVredmax q f s
  | .vredmin q f => Sys2Proof.Machine.execVredmin q f s
  | .vfunc q f => Sys2Proof.Machine.execVfunc q f s
  | .store q f => Sys2Proof.Machine.execStore q f s
  | .scatter q f => Sys2Proof.Machine.execScatter q f s
  | .epilogue q f => Sys2Proof.Machine.execEpilogue q f s
  | .jrawStore q dst joistBase rows => Sys2Proof.Machine.execJrawStore q dst joistBase rows s
  | .spanOpen q f => Sys2Proof.Machine.execSpanOpen q f s
  | .spanAdd q rslot share dst element => Sys2Proof.Machine.execSpanAdd q rslot share dst element s
  | .spanRelease q rslot => Sys2Proof.Machine.execSpanRelease q rslot s
  | .zstep q f => Sys2Proof.Machine.execZstep q f s
  | .zfill q f => Sys2Proof.Machine.execZfill q f s
  | .gaugeReset q f => Sys2Proof.Machine.execGaugeReset q f s
  | .plane q f => Sys2Proof.Machine.execPlane q f s
  | .planerPanel cluster => Sys2Proof.Machine.execPlanerPanel cluster s
  | .atomic q f => Sys2Proof.Machine.execAtomic q f s
  | .glueBegin q status => Sys2Proof.Machine.execGlueBegin q status s
  | .glueCommit q fail => Sys2Proof.Machine.execGlueCommit q fail s
  | .dvPost q engine channel addr => Sys2Proof.Machine.execDvPost q engine channel addr s
  | .fset q flags => Sys2Proof.Machine.execFset q flags s
  | .fclr q flags => Sys2Proof.Machine.execFclr q flags s
  | .fwait q flags => Sys2Proof.Machine.execFwait q flags s
  | .clamp q qmask id => Sys2Proof.Machine.execClamp q qmask id s
  | .twait q t frac launchMode lateFault => Sys2Proof.Machine.execTwait q t frac launchMode lateFault s
  | .loop q count body bodyLines => Sys2Proof.Machine.execLoop q count body bodyLines s
  | .tmark q => Sys2Proof.Machine.execTmark q s
  | .nop q => Sys2Proof.Machine.execNop q s
  | .qend q => Sys2Proof.Machine.execQend q s
  | .commandComplete core queue => Sys2Proof.Machine.execCommandComplete core queue s
  | .qstall core queue => Sys2Proof.Machine.execQstall core queue s
  | .deckAccess f => Sys2Proof.Machine.execDeckAccess f s
  | .glueBackoff id => Sys2Proof.Machine.execGlueBackoff id s
  | .glueClamped id => Sys2Proof.Machine.execGlueClamped id s
  | .glueApply id cluster ok oldLost => Sys2Proof.Machine.execGlueApply id cluster ok oldLost s
  | .glueRelease id => Sys2Proof.Machine.execGlueRelease id s
  | .glueTimeout id => Sys2Proof.Machine.execGlueTimeout id s
  | .copy chan beats err => Sys2Proof.Machine.execCopy chan beats err s
  | .send chan packets err => Sys2Proof.Machine.execSend chan packets err s
  | .mint chan => Sys2Proof.Machine.execMint chan s
  | .resume chan => Sys2Proof.Machine.execResume chan s
  | .flush chan => Sys2Proof.Machine.execFlush chan s
  | .dvComplete chan => Sys2Proof.Machine.execDvComplete chan s
  | .dvRetry chan err => Sys2Proof.Machine.execDvRetry chan err s
  | .dvPacePoll chan => Sys2Proof.Machine.execDvPacePoll chan s
  | .dvGrant engine err => Sys2Proof.Machine.execDvGrant engine err s
  | .egressGrant port => Sys2Proof.Machine.execEgressGrant port s
  | .dataPacketForward port flits => Sys2Proof.Machine.execDataPacketForward port flits s
  | .request => Sys2Proof.Machine.execRequest s
  | .reply => Sys2Proof.Machine.execReply s
  | .collective => Sys2Proof.Machine.execCollective s
  | .metaCombine => Sys2Proof.Machine.execMetaCombine s
  | .xferTimeout smod sctx xid => Sys2Proof.Machine.execXferTimeout smod sctx xid s
  | .tombstoneExpiry => Sys2Proof.Machine.execTombstoneExpiry s
  | .flagTombExpiry cluster pflag => Sys2Proof.Machine.execFlagTombExpiry cluster pflag s
  | .packetExpiry port => Sys2Proof.Machine.execPacketExpiry port s
  | .packetResidence port => Sys2Proof.Machine.execPacketResidence port s
  | .timeMarkSend port => Sys2Proof.Machine.execTimeMarkSend port s
  | .timeMark port flit => Sys2Proof.Machine.execTimeMark port flit s
  | .portIneligible port => Sys2Proof.Machine.execPortIneligible port s
  | .holdoverLimit => Sys2Proof.Machine.execHoldoverLimit s
  | .holdExpiry => Sys2Proof.Machine.execHoldExpiry s
  | .ttApply => Sys2Proof.Machine.execTtApply s
  | .rtApply => Sys2Proof.Machine.execRtApply s
  | .clockPlanApply => Sys2Proof.Machine.execClockPlanApply s
  | .linkDetect port lanesOk peerSerial peerPort => Sys2Proof.Machine.execLinkDetect port lanesOk peerSerial peerPort s
  | .linkRetrain port cause lanesOk => Sys2Proof.Machine.execLinkRetrain port cause lanesOk s
  | .linkDown port => Sys2Proof.Machine.execLinkDown port s
  | .frame port bytes => Sys2Proof.Machine.execFrame port bytes s
  | .identSend port => Sys2Proof.Machine.execIdentSend port s
  | .ident port flit => Sys2Proof.Machine.execIdent port flit s
  | .creditSend port => Sys2Proof.Machine.execCreditSend port s
  | .credit port flit => Sys2Proof.Machine.execCredit port flit s
  | .retrain port flit => Sys2Proof.Machine.execRetrain port flit s
  | .lanes port flit => Sys2Proof.Machine.execLanes port flit s
  | .mgmtWrite port flit => Sys2Proof.Machine.execMgmtWrite port flit s
  | .mgmtRead port flit => Sys2Proof.Machine.execMgmtRead port flit s
  | .mgmtReply port flit => Sys2Proof.Machine.execMgmtReply port flit s
  | .mgmtAssign port flit => Sys2Proof.Machine.execMgmtAssign port flit s
  | .portRouted port flit => Sys2Proof.Machine.execPortRouted port flit s
  | .portRetrain port flit => Sys2Proof.Machine.execPortRetrain port flit s
  | .rtDecl port flit => Sys2Proof.Machine.execRtDecl port flit s
  | .ttDecl port flit => Sys2Proof.Machine.execTtDecl port flit s
  | .routingEntryStage port flit => Sys2Proof.Machine.execRoutingEntryStage port flit s
  | .timetableStage port flit => Sys2Proof.Machine.execTimetableStage port flit s
  | .fmCmd count => Sys2Proof.Machine.execFmCmd count s
  | .fmReplyTimeout slot => Sys2Proof.Machine.execFmReplyTimeout slot s
  | .doorbellReread ring => Sys2Proof.Machine.execDoorbellReread ring s
  | .descriptorTake ring => Sys2Proof.Machine.execDescriptorTake ring s
  | .submissionGroup ring => Sys2Proof.Machine.execSubmissionGroup ring s
  | .nopDescriptor ring => Sys2Proof.Machine.execNopDescriptor ring s
  | .launch ring => Sys2Proof.Machine.execLaunch ring s
  | .launchStart ctx seq => Sys2Proof.Machine.execLaunchStart ctx seq s
  | .flagSet ring => Sys2Proof.Machine.execFlagSet ring s
  | .flagClr ring => Sys2Proof.Machine.execFlagClr ring s
  | .flagWait ring => Sys2Proof.Machine.execFlagWait ring s
  | .flagMap ring => Sys2Proof.Machine.execFlagMap ring s
  | .flagUnmap ring => Sys2Proof.Machine.execFlagUnmap ring s
  | .descMint ring => Sys2Proof.Machine.execDescMint ring s
  | .write64 ring => Sys2Proof.Machine.execWrite64 ring s
  | .xlateFlush ring => Sys2Proof.Machine.execXlateFlush ring s
  | .ctxCreate => Sys2Proof.Machine.execCtxCreate s
  | .ctxDestroy => Sys2Proof.Machine.execCtxDestroy s
  | .ctxSwitch => Sys2Proof.Machine.execCtxSwitch s
  | .priorityPreempt ctx => Sys2Proof.Machine.execPriorityPreempt ctx s
  | .switchDrainDone => Sys2Proof.Machine.execSwitchDrainDone s
  | .clockPlan => Sys2Proof.Machine.execClockPlan s
  | .completionRecord ring => Sys2Proof.Machine.execCompletionRecord ring s
  | .hostLinkDown => Sys2Proof.Machine.execHostLinkDown s
  | .hostLinkUp => Sys2Proof.Machine.execHostLinkUp s
  | .hostLink width rate => Sys2Proof.Machine.execHostLink width rate s
  | .hostSnoop line store => Sys2Proof.Machine.execHostSnoop line store s
  | .hostAccessTimeout line cause write => Sys2Proof.Machine.execHostAccessTimeout line cause write s
  | .windowRead pa => Sys2Proof.Machine.execWindowRead pa s
  | .windowWrite pa data mask => Sys2Proof.Machine.execWindowWrite pa data mask s
  | .hdmCommit => Sys2Proof.Machine.execHdmCommit s
  | .getVersion => Sys2Proof.Machine.execGetVersion s
  | .getCapabilities => Sys2Proof.Machine.execGetCapabilities s
  | .negotiateAlgorithms sm2 sm3 dmtf => Sys2Proof.Machine.execNegotiateAlgorithms sm2 sm3 dmtf s
  | .getDigests => Sys2Proof.Machine.execGetDigests s
  | .getCertificate slot offset length => Sys2Proof.Machine.execGetCertificate slot offset length s
  | .challenge slot nonce => Sys2Proof.Machine.execChallenge slot nonce s
  | .getMeasurements index sign nonce => Sys2Proof.Machine.execGetMeasurements index sign nonce s
  | .setCertificate slot chain => Sys2Proof.Machine.execSetCertificate slot chain s
  | .chunkSend handle seqNo last bytes => Sys2Proof.Machine.execChunkSend handle seqNo last bytes s
  | .chunkGet handle seqNo => Sys2Proof.Machine.execChunkGet handle seqNo s
  | .unsupportedRequest code => Sys2Proof.Machine.execUnsupportedRequest code s
  | .imgBegin => Sys2Proof.Machine.execImgBegin s
  | .imgData => Sys2Proof.Machine.execImgData s
  | .imgCommit => Sys2Proof.Machine.execImgCommit s
  | .moduleReset => Sys2Proof.Machine.execModuleReset s
  | .ownerEnrol => Sys2Proof.Machine.execOwnerEnrol s
  | .rollbackAdvance => Sys2Proof.Machine.execRollbackAdvance s
  | .dbgNonce => Sys2Proof.Machine.execDbgNonce s
  | .dbgUnlock => Sys2Proof.Machine.execDbgUnlock s
  | .quiesce => Sys2Proof.Machine.execQuiesce s
  | .scanNext => Sys2Proof.Machine.execScanNext s
  | .scanCore => Sys2Proof.Machine.execScanCore s
  | .scanStatus => Sys2Proof.Machine.execScanStatus s
  | .hangTake => Sys2Proof.Machine.execHangTake s
  | .hangRead => Sys2Proof.Machine.execHangRead s
  | .hangRelease => Sys2Proof.Machine.execHangRelease s
  | .traceRead => Sys2Proof.Machine.execTraceRead s
  | .mapoutClear => Sys2Proof.Machine.execMapoutClear s
  | .hbmTest => Sys2Proof.Machine.execHbmTest s
  | .margin sweep => Sys2Proof.Machine.execMargin sweep s
  | .mboxBadcmd code => Sys2Proof.Machine.execMboxBadcmd code s
  | .overrun code => Sys2Proof.Machine.execOverrun code s
  | .hangRecordDone => Sys2Proof.Machine.execHangRecordDone s
  | .pierRestart => Sys2Proof.Machine.execPierRestart s
  | .suspectCoreScan core => Sys2Proof.Machine.execSuspectCoreScan core s
  | .scanDone pass pattern => Sys2Proof.Machine.execScanDone pass pattern s
  | .rstEngine index => Sys2Proof.Machine.execRstEngine index s
  | .rstCore index => Sys2Proof.Machine.execRstCore index s
  | .rstCluster index => Sys2Proof.Machine.execRstCluster index s
  | .rstModule => Sys2Proof.Machine.execRstModule s
  | .rstHoldNext => Sys2Proof.Machine.execRstHoldNext s
  | .resetDone unit => Sys2Proof.Machine.execResetDone unit s
  | .resetEscalate unit => Sys2Proof.Machine.execResetEscalate unit s
  | .railCycle => Sys2Proof.Machine.execRailCycle s
  | .accessTimeout unit silent ctx bench hbmLine chan write => Sys2Proof.Machine.execAccessTimeout unit silent ctx bench hbmLine chan write s
  | .hbmFenceGo value => Sys2Proof.Machine.execHbmFenceGo value s
  | .patrolScrub line burst raced => Sys2Proof.Machine.execPatrolScrub line burst raced s
  | .attnClear value => Sys2Proof.Machine.execAttnClear value s
  | .ktReadLo => Sys2Proof.Machine.execKtReadLo s
  | .adminEn value => Sys2Proof.Machine.execAdminEn value s
  | .errEn value => Sys2Proof.Machine.execErrEn value s
  | .kzEn value => Sys2Proof.Machine.execKzEn value s
  | .registerWrite offset value size => Sys2Proof.Machine.execRegisterWrite offset value size s
  | .errorRecord => Sys2Proof.Machine.execErrorRecord s
  | .coalesceClose => Sys2Proof.Machine.execCoalesceClose s
  | .lostSummary => Sys2Proof.Machine.execLostSummary s
  | .kzLost => Sys2Proof.Machine.execKzLost s
  | .mboxCommandEnd => Sys2Proof.Machine.execMboxCommandEnd s
  | .controlPacketForward port flit => Sys2Proof.Machine.execControlPacketForward port flit s

end Sys2Proof.Machine
end

