-- ==== Sys2Proof/Safety.lean ====
section
/-!
DEFINITION. The terms in which claims are stated: what a safe step is, when a queue command starts and what its
issue leaves, and the invariants of the fuses and of the memories.
-/

namespace Sys2Proof.Machine

/-- A safe run: every step answers a next state. The one stop of this model is the fault for a command that names a
unit that the module does not have. -/
def Safe (s : State) : Prop := ∃ t, step s = .next t

/-! ### Queue commands that start (R174, R175, R180, R183, R314) -/

/-- A queue command that starts: the command at work, the module after its fetch and its flag reads, its flag waits, the
physical flags of those waits, and whether it stands in the body of an open glue-up. -/
structure Ready where
  job : Job
  dev : Dev
  waits : List (Nat × Bool)
  keys : List Nat
  inGlue : Bool

/-- The flags that a command names: waits, DONE, and other flag operands. -/
def cmdFlags (cmd : QCmd) (more : List (Nat × Bool)) (ops : List Nat) : List Nat :=
  (waitsOf cmd more).map (·.1) ++ cmd.done.toList ++ ops

/-- Whether a command whose flags translate to `ks` can issue now: the flags that it waits on are set, and its
engine has room (R174, R180, R184). -/
def canIssue (cmd : QCmd) (engine : Bool) (more : List (Nat × Bool)) (ks : List Nat) (d : Dev) : Bool :=
  (ks.take (waitsOf cmd more).length).all (fun k => (pflagAt d k).value)
    && !(engine && decide (flightLimit (queueNo cmd.queue)
      ≤ ((queueAt d cmd.core (queueNo cmd.queue)).inflight.filter (fun f => !f.imm && !f.glue)).length))

/-- What is asked of a command's form before its flags are looked at: a queue that accepts it, at least one line,
flags of 14 bits, and in a glue-up's body a command that may stand there and waits on nothing (R174, R205, R276). -/
def formOk (cmd : QCmd) (accept : List Nat) (glueOk : Bool) (more : List (Nat × Bool)) (ops : List Nat) (d : Dev) :
    Bool :=
  accept.contains (queueNo cmd.queue)
    && !((cmdFlags cmd more ops).any (fun v => decide (16384 ≤ v)) || cmd.lines == 0)
    && !((queueNo cmd.queue == 3 && (openGlue d cmd.core).isSome)
      && (!glueOk || cmd.waitA.isSome || cmd.waitB.isSome))

/-- The command at work where it starts, nothing where its queue cannot issue, where something refuses it or where
it waits. -/
def started (cmd : QCmd) (accept : List Nat) (engine glueOk : Bool) (more : List (Nat × Bool)) (ops : List Nat)
    (d : Dev) : Option Ready :=
  match issuer d cmd.core (queueNo cmd.queue) with
  | none => none
  | some ctx =>
    match fetchLines (startJob cmd ctx d) d with
    | .error _ => none
    | .ok d =>
      match flagXlAll d (startJob cmd ctx d).unit ctx (cmdFlags cmd more ops) with
      | .error _ => none
      | .ok ks =>
        let e := (cmdFlags cmd more ops).foldl (flagVisit (startJob cmd ctx d).unit ctx) d
        let z := latchStep cmd.core (queueNo cmd.queue) e
        let keys := ks.take (waitsOf cmd more).length
        if decide (cmd.core < 160) && formOk cmd accept glueOk more ops d && canIssue cmd engine more ks e then
          some {
            job := { startJob cmd ctx d with d := z.2, zstep := z.1, vc := waitVc e cmd.core keys (startJob cmd ctx d).vc }
            dev := e
            waits := waitsOf cmd more
            keys := keys
            inGlue := queueNo cmd.queue == 3 && (openGlue d cmd.core).isSome }
        else none

/-- What the issue of a command leaves whose work gives `j`. -/
def issued (r : Ready) (j : Job) : Dev := issueJob j r.waits r.keys r.inGlue

/-- Nothing holds back a command whose work is done: no earlier command of its queue whose effect comes behind its issue
touches what this one needs (R181), and the hazard sentinel is off or finds no race (R203). -/
def issuesNow (r : Ready) (j : Job) : Bool :=
  !behindOwn j r.keys r.inGlue r.dev
    && (!(ctxAt r.dev r.job.ctx).sentinel || (findRace { j with d := r.dev }).isNone)

/-! ### Fuses (R3, R15, R459, R461) -/

/-- How many of the `n` cores from `a` on a harvest map has. -/
def coresIn (h : BitVec 160) (a n : Nat) : Nat := ((List.range n).filter (fun i => h.getLsbD (a + i))).length

/-- A harvest map of one of the two grades: every core, or in each cluster at most one core disabled and on each
compute die exactly eight (R3). -/
def harvestLegal (h : BitVec 160) : Bool :=
  h == BitVec.allOnes 160
    || ((List.range 20).all (fun k => decide (7 ≤ coresIn h (8 * k) 8)) && coresIn h 0 80 == 72 && coresIn h 80 80 == 72)

/-- Fuses as they can stand: a legal harvest map, and rollback counters of 64 fuses (R3, R461). -/
def Fuse.ok (f : Fuse) : Bool :=
  harvestLegal f.harvest && decide (f.rbFirmware ≤ 64) && decide (f.rbConfig ≤ 64)

/-- What may happen to the fuses in service: the harvest map and the identity stay, rollback counters only rise, and
OWNER_DIGEST is blown at most once (R3, R459, R461). -/
structure Fuse.Later (a b : Fuse) : Prop where
  harvest : b.harvest = a.harvest
  serial : b.serial = a.serial
  identity : b.identityKey = a.identityKey
  debug : b.dbgLimitHolsever = a.dbgLimitHolsever ∧ b.dbgLimitOwner = a.dbgLimitOwner
  firmware : a.rbFirmware ≤ b.rbFirmware
  config : a.rbConfig ≤ b.rbConfig
  owner : a.ownerDigest = none ∨ b.ownerDigest = a.ownerDigest

end Sys2Proof.Machine
end

