-- ==== Sys2Proof/WellFormed.lean ====
section
/-!
DEFINITION. Which commands name units and flags that the module has. The issue checks of the engine
queues (CMD_DECODE and the classes of R199) are the machine's, not this predicate's.
-/

namespace Sys2Proof

/-- Cores 0 to 159 (R15). -/
def coreNo (n : Nat) : Bool := decide (n < 160)

/-- Clusters 0 to 19 (R15). -/
def clusterNo (n : Nat) : Bool := decide (n < 20)

/-- Ports 0 to 17 (R372). -/
def portNo (n : Nat) : Bool := decide (n < 18)

/-- A port, or none for a packet of this module's own pier or host. -/
def portOpt (p : Option Nat) : Bool :=
  match p with
  | some n => portNo n
  | none => true

/-- Dovetail channels 0 to 639 and engines 0 to 39 (R290). -/
def chanNo (n : Nat) : Bool := decide (n < 640)
def engineNo (n : Nat) : Bool := decide (n < 40)

/-- Rings of the contexts 0 to 4,095 and the admin ring 4,096 (R429). -/
def ringNo (n : Nat) : Bool := decide (n ≤ 4096)

/-- Contexts 0 to 4,095 (R325). -/
def ctxNo (n : Nat) : Bool := decide (n < 4096)

/-- A physical address of 48 bits (R330). -/
def addrNo (n : Nat) : Bool := decide (n < 2 ^ 48)

/-- A unit number: a type in the upper 4 bits and an index that its type has (R480). -/
def unitNo (u : BitVec 16) : Bool :=
  decide (u.toNat % 4096 < [1, 160, 640, 640, 20, 40, 20, 128, 18, 1, 1, 1, 7, 2].getD (u.toNat / 4096) 0)

/-- A byte of a core's bench, or none (R229). -/
def benchOpt (b : Option (Nat × Nat)) : Bool :=
  match b with
  | some (c, a) => coreNo c && decide (a < 0x180000)
  | none => true

/-- A Dovetail channel, or none. -/
def chanOpt (c : Option Nat) : Bool :=
  match c with
  | some n => chanNo n
  | none => true

/-- A virtual flag of 14 bits (R312). -/
def flagOpt (v : Option Nat) : Bool :=
  match v with
  | some n => decide (n < 16384)
  | none => true

/-- A memory error in a bench word of 72 bits or in a joist row of the core's four tiles (R229, R231, R233). -/
def Upset.wf (u : Upset) : Bool :=
  match u with
  | .bench a bit _ => decide (a < 0x180000) && decide (bit < 72)
  | .joist row bit _ => decide (row < 1024) && decide (bit < 72)

/-- What every queue command carries (R183). -/
def QCmd.wf (q : QCmd) : Bool :=
  coreNo q.core && flagOpt q.waitA && flagOpt q.waitB && flagOpt q.done && decide (0 < q.lines)
    && q.upsets.all Upset.wf

/-- A command that names units of the module only. -/
def Instr.wf (i : Instr) : Bool :=
  match i with
  | .powerOn _ => true
  | .railsGood => true
  | .fuseRead => true
  | .loadAndVerify => true
  | .dieRelease _ => true
  | .hbmTraining _ => true
  | .hbmZeroing => true
  | .hostLinkTraining _ _ _ => true
  | .fabricTraining _ => true
  | .ready => true
  | .inputLoss _ => true
  | .perstAssert => true
  | .perstDeassert => true
  | .mrstN _ => true
  | .mrstNRelease => true
  | .surpriseRemoval => true
  | .thermalThrottle _ _ => true
  | .thermalTrip _ _ => true
  | .powerCapAdjust _ => true
  | .pwrGuard _ _ => true
  | .ppsIn => true
  | .tcodeFrame _ => true
  | .extrefLoss _ => true
  | .ppsOut => true
  | .smState _ => true
  | .smIdent _ => true
  | .smTemps _ => true
  | .smPower _ => true
  | .smVin _ => true
  | .smThermal _ => true
  | .smAlertClr _ _ => true
  | .smRestart _ _ => true
  | .load q _ => q.wf
  | .gather q _ => q.wf
  | .spanSurvey q _ _ _ => q.wf
  | .jrawLoad q _ _ _ => q.wf
  | .matmul q _ => q.wf
  | .spanClose q _ _ => q.wf
  | .vadd q _ => q.wf
  | .vsub q _ => q.wf
  | .vmul q _ => q.wf
  | .vfma q _ => q.wf
  | .vmin q _ => q.wf
  | .vmax q _ => q.wf
  | .vminnum q _ => q.wf
  | .vmaxnum q _ => q.wf
  | .vcmp q _ => q.wf
  | .vsel q _ => q.wf
  | .vabs q _ => q.wf
  | .vneg q _ => q.wf
  | .vcopysign q _ => q.wf
  | .vcvt q _ => q.wf
  | .vrcp q _ => q.wf
  | .vrsqrt q _ => q.wf
  | .vexp2 q _ => q.wf
  | .vlog2 q _ => q.wf
  | .vdiv q _ => q.wf
  | .vsqrt q _ => q.wf
  | .viadd q _ => q.wf
  | .visub q _ => q.wf
  | .viand q _ => q.wf
  | .vior q _ => q.wf
  | .vixor q _ => q.wf
  | .vishl q _ => q.wf
  | .vishr q _ => q.wf
  | .vicmp q _ => q.wf
  | .vspan q _ => q.wf
  | .vspanOut q _ => q.wf
  | .vredmax q _ => q.wf
  | .vredmin q _ => q.wf
  | .vfunc q _ => q.wf
  | .store q _ => q.wf
  | .scatter q _ => q.wf
  | .epilogue q _ => q.wf
  | .jrawStore q _ _ _ => q.wf
  | .spanOpen q _ => q.wf
  | .spanAdd q _ _ _ _ => q.wf
  | .spanRelease q _ => q.wf
  | .zstep q _ => q.wf
  | .zfill q _ => q.wf
  | .gaugeReset q _ => q.wf
  | .plane q _ => q.wf
  | .planerPanel cluster => clusterNo cluster
  | .atomic q _ => q.wf
  | .glueBegin q _ => q.wf
  | .glueCommit q _ => q.wf
  | .dvPost q _ _ _ => q.wf
  | .fset q _ => q.wf
  | .fclr q _ => q.wf
  | .fwait q _ => q.wf
  | .clamp q _ _ => q.wf
  | .twait q _ _ _ _ => q.wf
  | .loop q _ _ _ => q.wf
  | .tmark q => q.wf
  | .nop q => q.wf
  | .qend q => q.wf
  | .commandComplete core _ => coreNo core
  | .qstall core _ => coreNo core
  | .deckAccess f => addrNo f.line && (match f.dataErr with | some (bit, _) => decide (bit < 576) | none => true)
  | .glueBackoff _ => true
  | .glueClamped _ => true
  | .glueApply _ cluster _ _ => clusterNo cluster
  | .glueRelease _ => true
  | .glueTimeout _ => true
  | .copy chan _ _ => chanNo chan
  | .send chan _ _ => chanNo chan
  | .mint chan => chanNo chan
  | .resume chan => chanNo chan
  | .flush chan => chanNo chan
  | .dvComplete chan => chanNo chan
  | .dvRetry chan _ => chanNo chan
  | .dvPacePoll chan => chanNo chan
  | .dvGrant engine _ => engineNo engine
  | .egressGrant port => portNo port
  | .dataPacketForward port _ => portNo port
  | .request => true
  | .reply => true
  | .collective => true
  | .metaCombine => true
  | .xferTimeout _ sctx _ => ctxNo sctx
  | .tombstoneExpiry => true
  | .flagTombExpiry cluster pflag => clusterNo cluster && decide (pflag < 4096)
  | .packetExpiry port => portNo port
  | .packetResidence port => portNo port
  | .timeMarkSend port => portNo port
  | .timeMark port _ => portNo port
  | .portIneligible port => portNo port
  | .holdoverLimit => true
  | .holdExpiry => true
  | .ttApply => true
  | .rtApply => true
  | .clockPlanApply => true
  | .linkDetect port _ _ _ => portNo port
  | .linkRetrain port _ _ => portNo port
  | .linkDown port => portNo port
  | .frame port _ => portNo port
  | .identSend port => portNo port
  | .ident port _ => portNo port
  | .creditSend port => portNo port
  | .credit port _ => portNo port
  | .retrain port _ => portNo port
  | .lanes port _ => portNo port
  | .mgmtWrite port _ => portOpt port
  | .mgmtRead port _ => portOpt port
  | .mgmtReply port _ => portOpt port
  | .mgmtAssign port _ => portOpt port
  | .portRouted port _ => portOpt port
  | .portRetrain port _ => portOpt port
  | .rtDecl port _ => portOpt port
  | .ttDecl port _ => portOpt port
  | .routingEntryStage port _ => portOpt port
  | .timetableStage port _ => portOpt port
  | .fmCmd _ => true
  | .fmReplyTimeout _ => true
  | .doorbellReread ring => ringNo ring
  | .descriptorTake ring => ringNo ring
  | .submissionGroup ring => ringNo ring
  | .nopDescriptor ring => ringNo ring
  | .launch ring => ringNo ring
  | .launchStart ctx _ => ctxNo ctx
  | .flagSet ring => ringNo ring
  | .flagClr ring => ringNo ring
  | .flagWait ring => ringNo ring
  | .flagMap ring => ringNo ring
  | .flagUnmap ring => ringNo ring
  | .descMint ring => ringNo ring
  | .write64 ring => ringNo ring
  | .xlateFlush ring => ringNo ring
  | .ctxCreate => true
  | .ctxDestroy => true
  | .ctxSwitch => true
  | .priorityPreempt ctx => ctxNo ctx
  | .switchDrainDone => true
  | .clockPlan => true
  | .completionRecord ring => ringNo ring
  | .hostLinkDown => true
  | .hostLinkUp => true
  | .hostLink _ _ => true
  | .hostSnoop line _ => addrNo line
  | .hostAccessTimeout line _ _ => addrNo line
  | .windowRead _ => true
  | .windowWrite _ _ _ => true
  | .hdmCommit => true
  | .getVersion => true
  | .getCapabilities => true
  | .negotiateAlgorithms _ _ _ => true
  | .getDigests => true
  | .getCertificate _ _ _ => true
  | .challenge _ _ => true
  | .getMeasurements _ _ _ => true
  | .setCertificate _ _ => true
  | .chunkSend _ _ _ _ => true
  | .chunkGet _ _ => true
  | .unsupportedRequest _ => true
  | .imgBegin => true
  | .imgData => true
  | .imgCommit => true
  | .moduleReset => true
  | .ownerEnrol => true
  | .rollbackAdvance => true
  | .dbgNonce => true
  | .dbgUnlock => true
  | .quiesce => true
  | .scanNext => true
  | .scanCore => true
  | .scanStatus => true
  | .hangTake => true
  | .hangRead => true
  | .hangRelease => true
  | .traceRead => true
  | .mapoutClear => true
  | .hbmTest => true
  | .margin _ => true
  | .mboxBadcmd _ => true
  | .overrun _ => true
  | .hangRecordDone => true
  | .pierRestart => true
  | .suspectCoreScan core => coreNo core
  | .scanDone _ _ => true
  | .rstEngine _ => true
  | .rstCore _ => true
  | .rstCluster _ => true
  | .rstModule => true
  | .rstHoldNext => true
  | .resetDone unit => unitNo unit
  | .resetEscalate unit => unitNo unit
  | .railCycle => true
  | .accessTimeout unit silent _ bench _ chan _ => unitNo unit && unitNo silent && benchOpt bench && chanOpt chan
  | .hbmFenceGo _ => true
  | .patrolScrub _ _ _ => true
  | .attnClear _ => true
  | .ktReadLo => true
  | .adminEn _ => true
  | .errEn _ => true
  | .kzEn _ => true
  | .registerWrite _ _ _ => true
  | .errorRecord => true
  | .coalesceClose => true
  | .lostSummary => true
  | .kzLost => true
  | .mboxCommandEnd => true
  | .controlPacketForward port _ => portNo port

end Sys2Proof
end

