-- ==== Sys2Proof/Certificates/Slice0/Obligations.lean ====
section
/-!
DEFINITION. What the provers are asked to prove of the model: one definition per statement, listed in
OBLIGATIONS.json. A command's completion is stated as the whole next state, so that everything that the state of the
right-hand side does not name is unchanged.
-/

open Sys2Proof Sys2Proof.Machine

/-! ### The queue of commands -/

/-- With a command at the front of the queue a step is that command's meaning on the state with the queue's rest. -/
def Obligations.StepRunsFront : Prop :=
  ∀ (c : Instr) (rest : List Instr) (s : State),
    step { s with pending := c :: rest } = exec c { s with pending := rest }

/-- Every command that names only units, rings, contexts and addresses of the module answers a next state, whatever the
state; and no command is refused in any state. -/
def Obligations.WellFormedCommandsComplete : Prop :=
  (∀ (i : Instr) (s : State), i.wf = true → ∃ t, exec i s = .next t)
  ∧ (∀ (i : Instr) (s : State) (r : Refusal), exec i s ≠ .refused r)

/-- No command's meaning touches the queue of waiting commands. -/
def Obligations.QueueKept : Prop :=
  ∀ (c : Instr) (s t : State), exec c s = .next t → t.pending = s.pending

/-! ### Control commands of the engine queues (R176, R178, R195 to R197) -/

/-- NOP, TMARK, FWAIT, FSET, FCLR, LOOP, QEND and TWAIT issue: NOP has no effect of its own, TMARK adds a trace
record, FWAIT has only its waits, FSET and FCLR carry up to four flags that they set or clear when they complete,
LOOP opens a level, QEND ends its queue once nothing of it is in flight, TWAIT goes on once its time has come, with a
late record where the time had passed when it could first issue, failing with CMD_LATE after that record where
LATE_FAULT asks for it, and CLAMP waits at its head for the queues of QMASK:
every meeting of the core that is then complete releases its queues in the same step. -/
def Obligations.ControlCommandsIssue : Prop :=
  ∀ (q : QCmd) (s : State) (r : Ready),
    (started q anyQueue false true [] [] s.dev = some r →
      (issuesNow r { r.job with imm := true } = true →
        exec (.nop q) s = .next { s with dev := issued r { r.job with imm := true } })
      ∧ ∀ j, j = { r.job with
              imm := true
              d := trace r.job.core r.job.q 2 r.job.ctx q.tag r.job.loops r.job.zstep r.job.d } →
          issuesNow r j = true → exec (.tmark q) s = .next { s with dev := issued r j })
    ∧ (∀ flags, flags.length ≤ 4 → started q anyQueue false false flags [] s.dev = some r →
        issuesNow r { r.job with imm := true } = true →
        exec (.fwait q flags) s = .next { s with dev := issued r { r.job with imm := true } })
    ∧ (∀ flags, flags.length ≤ 4 → started q anyQueue false false [] flags s.dev = some r →
        (issuesNow r { r.job with fset := flags } = true →
          exec (.fset q flags) s = .next { s with dev := issued r { r.job with fset := flags } })
        ∧ (issuesNow r { r.job with fclr := flags } = true →
          exec (.fclr q flags) s = .next { s with dev := issued r { r.job with fclr := flags } }))
    ∧ (started q anyQueue false false [] [] s.dev = some r →
        (∀ count body lines, count < 2 ^ 24 → 1 ≤ body → body ≤ 255 →
          (queueAt r.job.d r.job.core r.job.q).loops.length < 4 →
          (∀ l ∈ (queueAt r.job.d r.job.core r.job.q).loops.head?, l.pos + 1 + body ≤ l.body) →
          ∀ j, j = { r.job with imm := true, loop := some (count, body, lines) } → issuesNow r j = true →
          exec (.loop q count body lines) s = .next { s with dev := issued r j })
        ∧ ((queueAt r.job.d r.job.core r.job.q).inflight = [] →
          ∀ j, j = { r.job with imm := true, qend := true } → issuesNow r j = true →
          exec (.qend q) s = .next { s with dev := issued r j })
        ∧ (∀ (t : Stepped) (frac : BitVec 16) launchMode lateFault late,
          0 ≤ t.base → t.base < 2 ^ 64 → 0 ≤ steppedVal r.job.loops t → steppedVal r.job.loops t < 2 ^ 64 →
          twaitTarget r.job t frac launchMode ≤ r.job.d.kt.now →
          late = (decide (twaitTarget r.job t frac launchMode < r.job.d.kt.now) && !twaitHeld r.job) →
          ∀ d, d = (if late then trace r.job.core r.job.q 3 r.job.ctx q.tag r.job.loops r.job.zstep r.job.d
            else r.job.d) →
          ((late && lateFault) = true →
            exec (.twait q t frac launchMode lateFault) s =
              .next { s with dev := failCmd r.job { cls := cmdLate, dev := some d } r.dev })
          ∧ (∀ j, (late && lateFault) = false → j = { r.job with imm := true, d := d } → issuesNow r j = true →
            exec (.twait q t frac launchMode lateFault) s = .next { s with dev := issued r j }))
        ∧ (∀ (qmask : BitVec 4) id, id ≤ 7 → qmask.getLsbD r.job.q = true →
          clampClash r.job.d r.job.core r.job.q id qmask = false →
          exec (.clamp q qmask id) s =
            .next { s with dev := clampMeet q.core (headClamp q (queueNo q.queue) id qmask r.waits r.dev) }))

/-! ### Data movement (R73, R190, R218, R234) -/

/-- LOAD and GATHER copy the bits of the source's elements, poison with them, to the bench, element by element in
delivery order, and LOAD the scale bytes beside them where SCALE_DST asks; JRAW_LOAD and JRAW_STORE move joist rows
with their tags from and to 544-byte records. An empty GATHER reads nothing but its descriptor. -/
def Obligations.RawMovesIssue : Prop :=
  ∀ (q : QCmd) (s : State) (r : Ready),
    (started q [0] true false [] [] s.dev = some r →
      (∀ (f : LoadF) (x : Desc192) es j2 j3 j4,
        readDesc r.job.d r.job.ctx (steppedVal r.job.loops f.src) = .ok x → x.idxEn = false →
        checkBench r.job.loops (descTens x f.mitre).width true f.dst = .ok () →
        (benchBits r.job.loops (descTens x f.mitre).width f.dst).length = (descTens x f.mitre).count →
        readRaw (descTens x f.mitre) (r.job.tableRead (steppedVal r.job.loops f.src)) = .ok (es, j2) →
        (match f.scaleDst with
          | some b => if x.panel then copyScales x f.mitre (steppedVal j2.loops b) f.scaleStride j2 else .ok j2
          | none => .ok j2) = .ok j3 →
        copyToBench (descTens x f.mitre).width (benchBits r.job.loops (descTens x f.mitre).width f.dst) es j3 = .ok j4 →
        issuesNow r j4 = true →
        exec (.load q f) s = .next { s with dev := issued r j4 })
      ∧ (∀ (f : GatherF) (x : Desc192) ts es j2 j3 j4,
        readDesc r.job.d r.job.ctx (steppedVal r.job.loops f.src) = .ok x → x.idxEn = true →
        checkBench r.job.loops (descWidth x) true f.dst = .ok () →
        checkBench r.job.loops 32 false f.idx = .ok () →
        (benchBits r.job.loops (descWidth x) f.dst).length = indexedCount x f.idx → indexedEmpty x f.idx = false →
        readIndexes f.idx (r.job.tableRead (steppedVal r.job.loops f.src)) = .ok (ts, j2) →
        (∀ t ∈ ts, 0 ≤ t ∧ t < x.size.getD x.idxDim 0) →
        readRaw (indexedTens x ts f.mitre) j2 = .ok (es, j3) →
        copyToBench (descWidth x) (benchBits r.job.loops (descWidth x) f.dst) es j3 = .ok j4 →
        issuesNow r j4 = true →
        exec (.gather q f) s = .next { s with dev := issued r j4 })
      ∧ (∀ (f : GatherF) (x : Desc192),
        readDesc r.job.d r.job.ctx (steppedVal r.job.loops f.src) = .ok x → x.idxEn = true →
        checkBench r.job.loops (descWidth x) true f.dst = .ok () → checkBench r.job.loops 32 false f.idx = .ok () →
        (benchBits r.job.loops (descWidth x) f.dst).length = indexedCount x f.idx → indexedEmpty x f.idx = true →
        issuesNow r (r.job.tableRead (steppedVal r.job.loops f.src)) = true →
        exec (.gather q f) s =
          .next { s with dev := issued r (r.job.tableRead (steppedVal r.job.loops f.src)) })
      ∧ (∀ (src : Stepped) (joistBase rows b : Nat),
        joistBase ≤ 1023 → 1 ≤ rows → joistBase % 256 + rows ≤ 256 →
        steppedVal r.job.loops src = b → b + 544 * rows ≤ benchSize →
        ∀ j, j = { r.job with
              d := (List.range rows).foldl (fun d i => setJrow r.job.core (joistBase + i)
                { parseRow (benchRead r.job.d r.job.core (b + 544 * i) 544) with
                  poison := (parseRow (benchRead r.job.d r.job.core (b + 544 * i) 544)).poison
                    || benchPoisoned r.job.d r.job.core (b + 544 * i) 544 } d) r.job.d
              reads := (b, 544 * rows) :: r.job.reads
              dsts := Region.rows joistBase rows :: r.job.dsts } → issuesNow r j = true →
        exec (.jrawLoad q src joistBase rows) s = .next { s with dev := issued r j }))
    ∧ (started q [3] true false [] [] s.dev = some r →
      ∀ (dst : Stepped) (joistBase rows b : Nat),
        joistBase ≤ 1023 → 1 ≤ rows → joistBase % 256 + rows ≤ 256 →
        steppedVal r.job.loops dst = b → b + 544 * rows ≤ benchSize →
        ∀ j, j = { r.job with
              d := (List.range rows).foldl (fun d i =>
                let row := jrow r.job.d r.job.core (joistBase + i)
                let d := benchWrite r.job.core (b + 544 * i) (packRow row) d
                if row.poison then benchPoison r.job.core (b + 544 * i) 544 d else d) r.job.d
              rds := Region.rows joistBase rows :: r.job.rds
              writes := (b, 544 * rows) :: r.job.writes
              dsts := Region.bench b (544 * rows) :: r.job.dsts } → issuesNow r j = true →
        exec (.jrawStore q dst joistBase rows) s = .next { s with dev := issued r j })

/-- STORE converts the clean elements of its source into a write descriptor's tensor; SCATTER UNIQUE does so at the
positions that its indices name, each index in range and named once; SCATTER SUM, MAX and MIN combine the elements with
the deck's records in source order; an empty one reads no element and no index (R39, R186, R189, R210, R218 to R224). -/
def Obligations.StoreAndScatterIssue : Prop :=
  ∀ (q : QCmd) (s : State) (r : Ready), started q [3] true false [] [] s.dev = some r →
    (∀ (f : StoreF) src x g vs j2 j3 j4,
      storeSrc f.src f.srcFmt r.job = .ok src →
      readDesc r.job.d r.job.ctx (steppedVal r.job.loops f.dst) = .ok x →
      x.write = true → x.idxEn = false → x.elem = 0 → (descTens x false).count = src.count → src.count ≠ 0 →
      gaugeCheck f.conv.gslot x.fmt x.panel (r.job.tableRead (steppedVal r.job.loops f.dst)) = .ok (g, j2) →
      takeVals src j2 = .ok (vs, j3) →
      convWrite (descTens x false) f.conv g (vs.map (fun v => Lane.val v.1 v.2)) j3 = .ok j4 →
      issuesNow r j4 = true →
      exec (.store q f) s = .next { s with dev := issued r j4 })
    ∧ (∀ (f : StoreF) src x j, storeSrc f.src f.srcFmt r.job = .ok src →
      readDesc r.job.d r.job.ctx (steppedVal r.job.loops f.dst) = .ok x →
      x.write = true → x.idxEn = false → x.elem = 0 → (descTens x false).count = 0 → src.count = 0 →
      j = r.job.tableRead (steppedVal r.job.loops f.dst) → issuesNow r j = true →
      exec (.store q f) s = .next { s with dev := issued r j })
    ∧ (∀ (f : ScatterF) src x j, storeSrc f.src f.srcFmt r.job = .ok src →
      readDesc r.job.d r.job.ctx (steppedVal r.job.loops f.dst) = .ok x →
      x.write = true → x.idxEn = true → x.elem = modeElem f.mode → (f.mode ≠ .unique → x.space = false) →
      (f.mode = .max ∨ f.mode = .min → f.srcFmt ≤ 7) → checkBench r.job.loops 32 false f.idx = .ok () →
      src.count = indexedCount x f.idx → indexedEmpty x f.idx = true →
      j = { r.job.tableRead (steppedVal r.job.loops f.dst) with atom := f.mode != .unique } → issuesNow r j = true →
      exec (.scatter q f) s = .next { s with dev := issued r j })
    ∧ (∀ (f : ScatterF) src x ts vs j2 j3 j5,
      storeSrc f.src f.srcFmt r.job = .ok src →
      readDesc r.job.d r.job.ctx (steppedVal r.job.loops f.dst) = .ok x →
      x.write = true → x.idxEn = true → x.elem = modeElem f.mode →
      checkBench r.job.loops 32 false f.idx = .ok () →
      src.count = indexedCount x f.idx → indexedEmpty x f.idx = false →
      readIndexes f.idx { r.job.tableRead (steppedVal r.job.loops f.dst) with atom := f.mode != .unique } = .ok (ts, j2) →
      takeVals src j2 = .ok (vs, j3) →
      (f.mode = .unique → ∃ g j4,
        uniqueCheck (x.size.getD x.idxDim 0) ts = .ok () ∧ gaugeCheck f.conv.gslot x.fmt x.panel j3 = .ok (g, j4) ∧
        convWrite (indexedTens x ts false) f.conv g (vs.map (fun v => Lane.val v.1 v.2)) j4 = .ok j5) →
      (f.mode ≠ .unique → x.space = false ∧
        scatterAll f (x.size.getD x.idxDim 0) 0
          ((elemIndexes x ts).zip (((indexedTens x ts false).addrs.map (· / 8)).zip vs)) j3 = .ok j5) →
      (f.mode = .max ∨ f.mode = .min → f.srcFmt ≤ 7 ∧ f.indexBase + src.count ≤ 2 ^ 31) →
      issuesNow r j5 = true →
      exec (.scatter q f) s = .next { s with dev := issued r j5 })

/-- An EPILOGUE whose operands are clean and whose rows pass the checks of their reduction writes the converted values
of its M_SIZE by N_SIZE elements, releases the rows unless KEEP is set, and reports its numeric events
(R92 to R100). -/
def Obligations.EpilogueIssues : Prop :=
  ∀ (q : QCmd) (f : EpilogueF) (s : State) (r : Ready) t g red d2 ops rows j1 j2 j4 j5,
    started q [3] true false [] [] s.dev = some r →
    f.joistBase ≤ 1023 → f.joistBase % 32 = 0 → f.rslot ≤ 1023 → 1 ≤ f.mSize → f.mSize ≤ 32 → 1 ≤ f.nSize →
    f.nSize ≤ 32 → f.ztid < 2 ^ 24 →
    argTens f.dst true (f.mSize * f.nSize) f.ztid (steppedVal r.job.loops f.zorg) r.job = .ok (t, j1) →
    gaugeCheck f.conv.gslot t.fmt t.panel j1 = .ok (g, j2) →
    redLoad j2.unit j2.ctx f.rslot j2.d = .ok (red, d2) →
    epiOperand f (f.mSize * f.nSize) { j2 with d := d2 } = .ok (ops, j4) →
    epiRows f red j4 = .ok rows →
    (∀ i < f.mSize, epiPoison f j4 i = none) → (∀ o ∈ ops, o.2 = none) →
    epiWrite f red t g rows ops { j4 with rds := epiRegions f rows ++ j4.rds } = .ok j5 →
    issuesNow r j5 = true →
    exec (.epilogue q f) s = .next { s with dev := issued r j5 }

/-! ### Reductions (R53, R56, R58, R61, R76, R193) -/

/-- SPAN_OPEN writes the definition of its record; SPAN_SURVEY posts the maxima of its scale planes and SPAN_CLOSE its
share's smallest anchor, largest exponent, sticky bits and count; SPAN_RELEASE clears RED.OPEN of a resolved record without pending posts; SPAN_ADD
adds its share's words to the target records. -/
def Obligations.ReductionCommandsIssue : Prop :=
  ∀ (q : QCmd) (s : State) (r : Ready),
    (started q [3] true false [] [] s.dev = some r →
      (∀ f d, spanOpenRed r.job.unit r.job.ctx f r.job.d = .ok d → issuesNow r { r.job with d := d } = true →
        exec (.spanOpen q f) s = .next { s with dev := issued r { r.job with d := d } })
      ∧ (∀ slot red d d2, slot ≤ 1023 → redLoad r.job.unit r.job.ctx slot r.job.d = .ok (red, d) →
        red.resolved = true → red.pend = 0 →
        redStore r.job.unit r.job.ctx slot { red with isOpen := false } d = .ok d2 →
        ∀ j, j = { r.job with d := { d2 with parts := mapPut 0 (r.job.ctx * 1024 + slot) 0 d2.parts } } →
        issuesNow r j = true →
        exec (.spanRelease q slot) s = .next { s with dev := issued r j })
      ∧ (∀ slot share dst element x ws j2 red d j3, slot ≤ 1023 →
        readDesc r.job.d r.job.ctx (steppedVal r.job.loops dst) = .ok x →
        x.idxEn = false → x.write = true → x.space = false → x.elem = 1 →
        addWords share { r.job.tableRead (steppedVal r.job.loops dst) with atom := true } = .ok (ws, none, j2) →
        0 ≤ steppedVal j2.loops element →
        steppedVal j2.loops element + ws.length ≤ ((descTens x false).count : Int) →
        redLoad j2.unit j2.ctx slot j2.d = .ok (red, d) →
        spanAddAll slot red
          (ws.zip (((descTens x false).addrs.drop (steppedVal j2.loops element).toNat).map (· / 8)))
          { j2 with d := d } = .ok j3 →
        issuesNow r j3 = true →
        exec (.spanAdd q slot share dst element) s = .next { s with dev := issued r j3 }))
    ∧ (started q [0] true false [] [] s.dev = some r →
      ∀ slot a b va vb j2 j3 d, slot ≤ 1023 → surveyByte a r.job = .ok (va, j2) → surveyByte b j2 = .ok (vb, j3) →
        surveyPost j3.unit j3.ctx slot j3.core va vb j3.d = .ok d → issuesNow r { j3 with d := d, atom := true } = true →
        exec (.spanSurvey q slot a b) s = .next { s with dev := issued r { j3 with d := d, atom := true } })
    ∧ (started q [1] true false [] [] s.dev = some r →
      ∀ slot share rs x j2 d, slot ≤ 1023 → readShare share r.job = .ok (rs, none, j2) → rs.head? = some x →
        (∀ y ∈ rs, y.valid = true ∧ y.rslot = slot ∧ y.count = x.count) →
        closePost j2.unit j2.ctx slot j2.core
          { anchor := rs.foldl (fun a y => min a y.anchor) x.anchor
            eobs := rs.foldl (fun e y => maxExp e y.eobs) noExp
            sticky := rs.foldl (fun e y => e.or y.sticky) {}
            count := x.count } j2.d = .ok d →
        issuesNow r { j2 with d := d, atom := true } = true →
        exec (.spanClose q slot share) s = .next { s with dev := issued r { j2 with d := d, atom := true } })

/-! ### The matrix engine (R79 to R105) -/

/-- A MATMUL on an open reduction of its own format accumulates: its rows are opened or kept, and the pass over its K
positions leaves them with the sums, the term count, the largest exponent and the tags of R85 and R192. It issues once
each of its tiles has room for it (R91, R174). -/
def Obligations.MatmulIssues : Prop :=
  ∀ (q : QCmd) (f : MatmulF) (s : State) (r : Ready) a b red d l rows j2 j3,
    started q [1] true false [] [] s.dev = some r →
    fmtMatrix f.fmt = true → fmtKnown f.fmt = true → f.fmtB = f.fmt → f.aPanel ≤ 2 → f.bPanel ≤ 2 →
    1 ≤ f.mSize → f.mSize ≤ 32 → 1 ≤ f.nSize → f.nSize ≤ 32 → f.kc ≤ 65536 → f.kc ≠ 0 → f.joistBase ≤ 1023 →
    f.rslot ≤ 1023 → f.joistBase % 32 = 0 → (f.sister = true → f.joistBase / 256 % 2 = 0) →
    matOperandOf f.fmt f.kc (steppedVal r.job.loops f.aAddr) f.aStride f.aPanel (steppedVal r.job.loops f.aScale)
      f.aScaleStride = .ok a →
    matOperandOf f.fmt f.kc (steppedVal r.job.loops f.bAddr) f.bStride f.bPanel (steppedVal r.job.loops f.bScale)
      f.bScaleStride = .ok b →
    tilesFree f r.job = true →
    (f.openRows = false → f.redoOnly = true → ∃ x ∈ blockRows r.job.d r.job.core f.joistBase, x.redone = true) →
    redLoad r.job.unit r.job.ctx f.rslot r.job.d = .ok (red, d) →
    red.isOpen = true → red.fmt = f.fmt → red.single = false →
    (red.path = 0 → red.resolved = true) → (red.path ≠ 0 → f.aPanel = 0 ∧ f.bPanel = 0) →
    (f.redoOnly = true → redoRuns f red (blockRows r.job.d r.job.core f.joistBase) = true) →
    l = (if red.path = 1 ∧ !red.resolved then red.l0 else red.l) →
    matmulRows f red l { r.job with d := d } = .ok j2 →
    rows = (passTiles f).map (fun jb => Region.rows jb 32) →
    matmulPass f a b red ⟨red.path, red.k, red.w, red.path == 1⟩
      { j2 with
        rds := if f.openRows then j2.rds else rows ++ j2.rds
        tiles := (passTiles f).map (· / 256) } = .ok j3 →
    issuesNow r j3 = true →
    exec (.matmul q f) s = .next { s with dev := issued r j3 }

/-- A MATMUL without K positions and without OPEN, and a REDO_ONLY one on rows of which none was redone, are empty and read
nothing; a REDO_ONLY one that would open its rows and finds nothing to redo changes no row; and one without K positions
that opens its rows leaves them opened and empty (R62, R82, R84, R186). -/
def Obligations.MatmulWithoutTerms : Prop :=
  ∀ (q : QCmd) (f : MatmulF) (s : State) (r : Ready) a b,
    started q [1] true false [] [] s.dev = some r →
    fmtMatrix f.fmt = true → fmtKnown f.fmt = true → f.fmtB = f.fmt → f.aPanel ≤ 2 → f.bPanel ≤ 2 →
    1 ≤ f.mSize → f.mSize ≤ 32 → 1 ≤ f.nSize → f.nSize ≤ 32 → f.kc ≤ 65536 → f.joistBase ≤ 1023 →
    f.rslot ≤ 1023 → f.joistBase % 32 = 0 → (f.sister = true → f.joistBase / 256 % 2 = 0) →
    matOperandOf f.fmt f.kc (steppedVal r.job.loops f.aAddr) f.aStride f.aPanel (steppedVal r.job.loops f.aScale)
      f.aScaleStride = .ok a →
    matOperandOf f.fmt f.kc (steppedVal r.job.loops f.bAddr) f.bStride f.bPanel (steppedVal r.job.loops f.bScale)
      f.bScaleStride = .ok b →
    tilesFree f r.job = true →
    (f.openRows = false →
      f.kc = 0 ∨ (f.redoOnly = true ∧ ∀ x ∈ blockRows r.job.d r.job.core f.joistBase, x.redone = false) →
      issuesNow r r.job = true →
      exec (.matmul q f) s = .next { s with dev := issued r r.job })
    ∧ (∀ red d, f.openRows = true → redLoad r.job.unit r.job.ctx f.rslot r.job.d = .ok (red, d) →
      red.isOpen = true → red.fmt = f.fmt → red.single = false →
      (red.path = 0 → red.resolved = true) → (red.path ≠ 0 → f.aPanel = 0 ∧ f.bPanel = 0) →
      (f.redoOnly = true → redoRuns f red (blockRows r.job.d r.job.core f.joistBase) = false →
        issuesNow r { r.job with d := d } = true →
        exec (.matmul q f) s = .next { s with dev := issued r { r.job with d := d } })
      ∧ (f.kc = 0 → (f.redoOnly = true → redoRuns f red (blockRows r.job.d r.job.core f.joistBase) = true) →
        ∀ j, j = { r.job with
            d := (passTiles f).foldl (fun e jb => putRows r.job.core jb (List.replicate 32
              (openRow f.rslot red.path (if red.path = 1 ∧ !red.resolved then red.l0 else red.l) f)) e) d
            tiles := (passTiles f).map (· / 256)
            dsts := (passTiles f).map (fun jb => Region.rows jb 32) } →
          issuesNow r j = true →
          exec (.matmul q f) s = .next { s with dev := issued r j }))

/-! ### The vector engine (R108 to R128, R564, R565) -/

/-- What an element-wise V command computes, from the table of R109: how its sources are read, its sources, whether a
register destination takes the command's destination format, whether its mask selects between sources, and the result
of a running element with its IEEE flags. An operation that rounds takes an RND of R110; the others ignore the field. VEC.FTZ acts on arithmetic, never on what works on bits or selects. -/
def elementwiseRule : Instr → Option (QCmd × VCmd × VRead × List VSrc × Bool × Bool ×
    (Job → Bool → List VIn → Lane × BitVec 5))
  | .vadd q f => if f.rnd = .sr then none else some (q, f, .prec, [f.a, f.b], false, false, fun j _ l => arith f j false true
      (fun c z => fAdd c f.rnd z (opnd l 0) (opnd l 1)))
  | .vsub q f => if f.rnd = .sr then none else some (q, f, .prec, [f.a, f.b], false, false, fun j _ l => arith f j false true
      (fun c z => fSub c f.rnd z (opnd l 0) (opnd l 1)))
  | .vmul q f => if f.rnd = .sr then none else some (q, f, .prec, [f.a, f.b], false, false, fun j _ l => arith f j false true
      (fun c z => fMul c f.rnd z (opnd l 0) (opnd l 1)))
  | .vfma q f => if f.rnd = .sr then none else some (q, f, .prec, [f.a, f.b, f.c], false, false, fun j _ l => arith f j false true
      (fun c z => fFma c f.rnd z (opnd l 0) (opnd l 1) (opnd l 2)))
  | .vdiv q f => if f.rnd = .sr then none else some (q, f, .prec, [f.a, f.b], false, false, fun j _ l => arith f j false true
      (fun c z => fDiv c f.rnd z (opnd l 0) (opnd l 1)))
  | .vsqrt q f => if f.rnd = .sr then none else some (q, f, .prec, [f.a], false, false, fun j _ l => arith f j false true
      (fun c z => fSqrt c f.rnd z (opnd l 0)))
  | .vmin q f => some (q, f, .prec, [f.a, f.b], false, false, fun j _ l => arith f j false false
      (fun c _ => fMinMax c false (opnd l 0) (opnd l 1)))
  | .vmax q f => some (q, f, .prec, [f.a, f.b], false, false, fun j _ l => arith f j false false
      (fun c _ => fMinMax c true (opnd l 0) (opnd l 1)))
  | .vminnum q f => some (q, f, .prec, [f.a, f.b], false, false, fun j _ l => arith f j false false
      (fun c _ => fMinMaxNum c false (opnd l 0) (opnd l 1)))
  | .vmaxnum q f => some (q, f, .prec, [f.a, f.b], false, false, fun j _ l => arith f j false false
      (fun c _ => fMinMaxNum c true (opnd l 0) (opnd l 1)))
  | .vabs q f => some (q, f, .prec, [f.a], false, false, fun j _ l => arith f j true false
      (fun c _ => (fAbs c (opnd l 0), 0)))
  | .vneg q f => some (q, f, .prec, [f.a], false, false, fun j _ l => arith f j true false
      (fun c _ => (fNeg c (opnd l 0), 0)))
  | .vcopysign q f => some (q, f, .prec, [f.a, f.b], false, false, fun j _ l => arith f j true false
      (fun c _ => (fCopySign c (opnd l 0) (opnd l 1), 0)))
  | .vrcp q f => if f.rnd = .sr ∨ f.prec64 then none else some (q, f, .prec, [f.a], false, false, fun j _ l => arith f j false true
      (fun c z => fRcp c f.rnd z (opnd l 0)))
  | .vrsqrt q f => if f.rnd = .sr ∨ f.prec64 then none else some (q, f, .prec, [f.a], false, false, fun j _ l => arith f j false true
      (fun c z => fRsqrt c f.rnd z (opnd l 0)))
  | .vexp2 q f => if f.rnd = .sr ∨ f.prec64 then none else some (q, f, .prec, [f.a], false, false, fun j _ l => arith f j false true
      (fun _ z => fExp2 f.rnd z (opnd l 0)))
  | .vlog2 q f => if f.rnd = .sr ∨ f.prec64 then none else some (q, f, .prec, [f.a], false, false, fun j _ l => arith f j false true
      (fun _ z => fLog2 f.rnd z (opnd l 0)))
  | .vfunc q f => if f.prec64 then none else some (q, f, .prec, [f.a], false, false, fun j _ l => arith f j false true
      (fun _ z => refFunc f.func z (opnd l 0)))
  | .vcvt q f => some (q, f, .exact, [f.a], true, false, fun _ _ l => match l with
      | x :: _ => (.val x.val x.snan, 0)
      | [] => (.keep, 0))
  | .vsel q f => some (q, f, .prec, [f.a, f.b], false, true, fun _ bit l =>
      (resultLane f true (if bit then opnd l 0 else opnd l 1), 0))
  | .viadd q f => wraps q f (fun a b => a + b)
  | .visub q f => wraps q f (fun a b => a + 2 ^ 32 - b)
  | .viand q f => wraps q f (fun a b => a &&& b)
  | .vior q f => wraps q f (fun a b => a ||| b)
  | .vixor q f => wraps q f (fun a b => a ^^^ b)
  | .vishl q f => wraps q f (fun a b => a * 2 ^ (b % 32))
  | .vishr q f => wraps q f (fun a b => toTwos 32 ((ofTwos 32 a).fdiv (2 ^ (b % 32) : Nat)))
  | _ => none
where
  arith (f : VCmd) (j : Job) (keep ftz : Bool) (op : Nat → Bool → FlagRes) : Lane × BitVec 5 :=
    let x := op (precFmt f) (ftz && (ctxAt j.d j.ctx).ftz)
    (resultLane f keep x.1, x.2)
  wraps (q : QCmd) (f : VCmd) (op : Nat → Nat → Nat) :
      Option (QCmd × VCmd × VRead × List VSrc × Bool × Bool × (Job → Bool → List VIn → Lane × BitVec 5)) :=
    if f.prec64 then none
    else some (q, f, .int, [f.a, f.b], false, false, fun _ _ l =>
      let v := op (opnd l 0) (opnd l 1) % 2 ^ 32
      match f.dst with
      | .vx _ _ _ => (.bits v, 0)
      | .bench _ _ _ _ => (.val (.fin (decide (ofTwos 32 v < 0)) (ofTwos 32 v).natAbs 0) false, 0))

/-- An element-wise V command computes each running element by the rule of R109, leaves or zeroes the others as PRED
says, ORs the IEEE flags of its elements into the context's, and writes the converted results; with N = 0 it does
nothing. -/
def Obligations.ElementwiseCommandsIssue : Prop :=
  ∀ (i : Instr) q f rd srcs cvt sel op (s : State) (r : Ready),
    elementwiseRule i = some (q, f, rd, srcs, cvt, sel, op) →
    started q [2] true false [] [] s.dev = some r →
    (f.n = 0 → issuesNow r r.job = true → exec i s = .next { s with dev := issued r r.job })
    ∧ (∀ dto j2 ls j3 bits j4 outs j5, 1 ≤ f.n → f.n ≤ 2 ^ 24 →
      planDst f f.n cvt r.job = .ok (dto, j2) → readSrcs rd f srcs j2 = .ok (ls, j3) →
      (if sel then readMask f.mask f.n j3 else predLanes f f.n j3) = .ok (bits, j4) →
      poisonedLanes (if sel then List.replicate f.n true else bits) (transposeLanes f.n ls) = [] →
      outs = ((transposeLanes f.n ls).zip ((if sel then List.replicate f.n true else bits).zip bits)).map
        (fun (p : List VIn × (Bool × Bool)) =>
          if p.2.1 then ((op j4 p.2.2 p.1).1, (op j4 p.2.2 p.1).2 ||| orFlags (p.1.map (·.fl)))
          else (maskedLane f, 0)) →
      writeDst f dto (outs.map (·.1)) { j4 with d := addFlags j4.ctx (orFlags (outs.map (·.2))) j4.d } = .ok j5 →
      issuesNow r j5 = true →
      exec i s = .next { s with dev := issued r j5 })

/-- VCMP and VICMP write one bit for each element to mask words of 64: the quiet comparison of their condition, in the
command's precision or in INT32; an element that does not run keeps or clears its bit; with
N = 0 they do nothing (R109, R112, R186, R565). -/
def Obligations.CompareCommandsIssue : Prop :=
  ∀ (q : QCmd) (f : VCmd) (s : State) (r : Ready) i, started q [2] true false [] [] s.dev = some r →
    (f.n = 0 → i = .vcmp q f ∨ (i = .vicmp q f ∧ f.prec64 = false) → issuesNow r r.job = true →
      exec i s = .next { s with dev := issued r r.job })
    ∧ ∀ rd op dop fmt panel scale base ls j2 runs j3 outs ws j4, 1 ≤ f.n → f.n ≤ 2 ^ 24 →
    (i = .vcmp q f ∧ rd = .prec ∧ op = (fun a b => fCmp (precFmt f) f.cond a b))
      ∨ (i = .vicmp q f ∧ f.prec64 = false ∧ rd = .int
        ∧ op = (fun a b => (intCmp f.cond (ofTwos 32 a) (ofTwos 32 b), 0))) →
    f.dst = .bench dop fmt panel scale → steppedVal r.job.loops dop.base = ((base : Nat) : Int) →
    base % 8 = 0 → base + 8 * ((f.n + 63) / 64) ≤ benchSize →
    readSrcs rd f [f.a, f.b] r.job = .ok (ls, j2) → predLanes f f.n j2 = .ok (runs, j3) →
    poisonedLanes runs (transposeLanes f.n ls) = [] →
    outs = ((transposeLanes f.n ls).zip runs).map (fun (p : List VIn × Bool) =>
      if p.2 then (some (op (opnd p.1 0) (opnd p.1 1)).1, (op (opnd p.1 0) (opnd p.1 1)).2 ||| orFlags (p.1.map (·.fl)))
      else if f.pred = .merge then (none, 0) else (some false, (0 : BitVec 5))) →
    ws = ((List.range ((f.n + 63) / 64)).zip (chunksOf outs.length 64 (outs.map (·.1)))).map
      (fun (p : Nat × List (Option Bool)) =>
        ((⟨8 * ((base + 8 * p.1 : Nat) : Int), 64, maskWord (benchLe j3.d j3.core (base + 8 * p.1) 8) p.2⟩ : BitWrite),
          p.2.any (·.isNone) && benchPoisoned j3.d j3.core (base + 8 * p.1) 8)) →
    putWrites true (ws.map (·.1)) { j3 with d := addFlags j3.ctx (orFlags (outs.map (·.2))) j3.d } = .ok j4 →
    ∀ j, j = { j4 with
        d := ws.foldl (fun d p => if p.2 then benchPoison j4.core (p.1.at_.toNat / 8) 8 d else d) j4.d } →
    issuesNow r j = true →
    exec i s = .next { s with dev := issued r j }

/-- VSPAN enters its running terms, exact single values or products, into its span records, element i into record
i mod R; one without elements or, under REDO_ONLY, without anything to redo leaves them (R62, R124). VSPAN_OUT of
finished records at the final anchor, the poisoned ones of masked lanes apart, writes each running record's value
divided by D, in one rounding, invalidates the records unless KEEP is set, and sets RED.SAT where an integer path's
value leaves INT32 (R49, R50, R68, R112, R125). -/
def Obligations.SpanCommandsIssue : Prop :=
  (
    ∀ (q : QCmd) (f : VCmd) (s : State) (r : Ready),
      started q [2] true false [] [] s.dev = some r → f.n ≤ 2 ^ 24 → f.rslot ≤ 1023 → 1 ≤ f.r → f.r ≤ 4096 →
      (f.n = 0 → issuesNow r r.job = true → exec (.vspan q f) s = .next { s with dev := issued r r.job })
      ∧ ∀ base old jr reads, 1 ≤ f.n →
        dstBase f r.job = some ((base : Nat) : Int) → readSpans base f.r r.job = .ok (old, jr) →
        reads = (!f.openRec || f.redoOnly) → (reads = true → ∀ x ∈ old, x.2 = false) →
        (f.openRec = false → f.redoOnly = true → (∀ x ∈ old, x.1.redone = false) → issuesNow r r.job = true →
          exec (.vspan q f) s = .next { s with dev := issued r r.job })
        ∧ ∀ red d, (f.openRec = false → f.redoOnly = true → ∃ x ∈ old, x.1.redone = true) →
          redLoad r.job.unit r.job.ctx f.rslot r.job.d = .ok (red, d) → red.isOpen = true → red.path ≠ 3 →
          red.single = !srcNamed f.b →
          (∀ x ∈ (if srcNamed f.b then [f.a, f.b] else [f.a]), srcFmt f x = red.fmt
            ∧ (red.path ≠ 0 → ∀ o m sc, x ≠ .bench o m true sc)) →
          (red.path = 0 → red.resolved = true) →
          (f.openRec = true → f.redoOnly = true → (∀ x ∈ old, x.1.anchor = red.l ∧ x.1.redo = false) →
            issuesNow r { r.job with d := d } = true →
            exec (.vspan q f) s = .next { s with dev := issued r { r.job with d := d } })
          ∧ ∀ ls j4 runs j5 terms recs j6,
            (f.openRec = true → f.redoOnly = true → ∃ x ∈ old, x.1.anchor ≠ red.l ∨ x.1.redo = true) →
            readSrcs .exact f (if srcNamed f.b then [f.a, f.b] else [f.a])
              { (if reads then jr else r.job) with d := d } = .ok (ls, j4) →
            predLanes f f.n j4 = .ok (runs, j5) →
            terms = runs.zip ((transposeLanes f.n ls).map (spanTerm (srcNamed f.b))) →
            spanRecords f red (spanSweep terms) (old.map (·.1)) j5.d = .ok recs →
            poisonedLanes runs (transposeLanes f.n ls) = [] →
            writeSpans base (spanEnterAll red terms recs) j5 = .ok j6 →
            issuesNow r j6 = true →
            exec (.vspan q f) s = .next { s with dev := issued r j6 })
  ∧ (
    ∀ (q : QCmd) (f : VCmd) (s : State) (r : Ready) op fmt panel scale base old j2 red d dto j3 runs j4 vals lanes j5 j6 j7,
      started q [2] true false [] [] s.dev = some r → f.rslot ≤ 1023 → 1 ≤ f.r → f.r ≤ 4096 → 1 ≤ f.d → f.d < 2 ^ 32 →
      f.a = .bench op fmt panel scale → steppedVal r.job.loops op.base = ((base : Nat) : Int) →
      readSpans base f.r r.job = .ok (old, j2) → planDst f f.r false j2 = .ok (dto, j3) →
      predLanes f f.r j3 = .ok (runs, j4) → (∀ x ∈ runs.zip old, x.1 = true → x.2.2 = false) →
      redLoad j4.unit j4.ctx f.rslot j4.d = .ok (red, d) → red.resolved = true →
      (∀ x ∈ old, x.2 = false →
        x.1.valid = true ∧ x.1.rslot = f.rslot ∧ x.1.redo = false ∧ x.1.anchor = red.l) →
      vals = old.map (fun x => spanVal x.1.i x.1.anchor x.1.sticky) →
      lanes = (runs.zip vals).map (fun p => if p.1 then Lane.quot p.2 f.d else maskedLane f) →
      writeDst f dto lanes { j4 with d := d } = .ok j5 →
      (if f.keep then .ok j5 else clearValid base f.r j5) = .ok j6 →
      (if red.path == 2 && (match f.dst with | .bench _ m _ _ => m == 9 | .vx _ _ _ => false)
          && (runs.zip vals).any (fun p => p.1 && beyondInt32 p.2 f.d)
        then setRedSat f.rslot j6 else .ok j6) = .ok j7 →
      issuesNow r j7 = true →
      exec (.vspanOut q f) s = .next { s with dev := issued r j7 })

/-- VREDMAX and VREDMIN keep for each of their R pair records the best running element and its index, beginning with
the identity where OPEN is set, and write the pairs that changed; with N = 0 they do nothing (R69, R70, R126, R186). -/
def Obligations.ExtremaIssue : Prop :=
  ∀ (q : QCmd) (f : VCmd) (s : State) (r : Ready) i big,
    started q [2] true false [] [] s.dev = some r → f.n ≤ 2 ^ 24 → 1 ≤ f.r → f.r ≤ 4096 → f.ztid < 2 ^ 24 →
    (i = .vredmax q f ∧ big = true) ∨ (i = .vredmin q f ∧ big = false) →
    (f.n = 0 → issuesNow r r.job = true → exec i s = .next { s with dev := issued r r.job })
    ∧ ∀ base ls j2 runs j3 start ps outs j4, 1 ≤ f.n →
    0 ≤ steppedVal r.job.loops f.zorg → steppedVal r.job.loops f.zorg + (max f.n f.r : Nat) ≤ 2 ^ 43 →
    dstBase f r.job = some ((base : Nat) : Int) → base % 8 = 0 → base + 8 * f.r ≤ benchSize →
    readSrcs .exact f [f.a] r.job = .ok (ls, j2) → predLanes f f.n j2 = .ok (runs, j3) →
    start = (List.range f.r).map (fun k =>
      if f.openRec then (⟨.inf big, 0x7FFFFFFF, true, false⟩ : RedPair)
      else ⟨decodeElem 7 (benchLe j3.d j3.core (base + 8 * k) 8 % 2 ^ 32),
        ofTwos 32 (benchLe j3.d j3.core (base + 8 * k) 8 / 2 ^ 32), false, false⟩) →
    (f.openRec = false → ∀ k < f.r, (∃ i < f.n, i % f.r = k ∧ runs.getD i false = true) →
      benchPoisoned j3.d j3.core (base + 8 * k) 8 = false) →
    poisonedLanes runs (transposeLanes f.n ls) = [] →
    ps = pairEnterAll big f.indexBase (runs.zip ((transposeLanes f.n ls).filterMap List.head?)) start →
    outs = ((List.range f.r).zip ps).filterMap (fun (p : Nat × RedPair) =>
      if p.2.new then some (p.1, pairBits f
        (elemRandom j3 f.conv f.ztid ((steppedVal j3.loops f.zorg).toNat + p.1)) p.2) else none) →
    putWrites true (outs.map (fun p => (⟨8 * ((base : Int) + 8 * p.1), 64, p.2.1⟩ : BitWrite)))
      { j3 with
        d := addFlags j3.ctx (orFlags (outs.map (·.2.2))) j3.d
        reads := if f.openRec then j3.reads else (base, 8 * f.r) :: j3.reads } = .ok j4 →
    issuesNow r j4 = true →
    exec i s = .next { s with dev := issued r j4 }

/-! ### Atomics and glue-ups (R263 to R288) -/

/-- Outside a glue-up an ATOMIC whose operands pass their checks runs its operations at the decks in ascending order;
within one it becomes actions of the open glue-up, which are then staged. GLUE_BEGIN opens a glue-up of its own queue,
without its waits where it reruns after a switch, and GLUE_COMMIT ends its body and lets it reach its commit point (R268, R269, R274 to R277). -/
def Obligations.GlueCommandsIssue : Prop :=
  ∀ (q : QCmd) (s : State) (r : Ready),
    (started q [3] true true [] [] s.dev = some r →
      ∀ (f : AtomicF) ts j2, atomPlan f r.job = .ok (ts, j2) →
        (openGlue j2.d j2.core = none → ∀ j3, atomRun f ts j2 = .ok j3 → issuesNow r j3 = true →
          exec (.atomic q f) s =
            .next { s with dev := sendActs q.core (actCount s.dev q.core) (issued r j3) })
        ∧ (∀ g as j3, openGlue j2.d j2.core = some g → glueActs f j2.cmd.tag ts j2 = .ok (as, j3) →
          (f.op = .sinit → sinitOpnd j2.unit j2.ctx f.rslot j2.d ≠ .error .wait) →
          glueFits (g.acts ++ as) = true →
          ∀ j, j = { j3 with d := putGlue { g with acts := g.acts ++ as } j3.d, writes := [] } →
          issuesNow r j = true →
          exec (.atomic q f) s =
            .next { s with dev := sendActs q.core (actCount s.dev q.core) (issued r j) }))
    ∧ (∀ q', q' = (if (queueAt s.dev q.core 3).glueLast = 5 then { q with waitA := none, waitB := none } else q) →
      started q' [3] false false [] [] s.dev = some r →
      ∀ (status : Stepped) (a : Nat), steppedVal r.job.loops status = (a : Int) → a % 8 = 0 → a + 8 ≤ benchSize →
        (∀ g ∈ r.job.d.glues, g.id ≠ 4 * r.job.core + 3) →
        ∀ j, j = { r.job with
            glueMark := true
            d := modQueue r.job.core 3 (fun x => { x with glueLast := 0 }) { r.job.d with glues := r.job.d.glues ++ [
              { id := 4 * r.job.core + 3, core := r.job.core, ctx := r.job.ctx, status := a,
                last := (queueAt r.job.d r.job.core 3).glueLast, loops := (queueAt r.job.d r.job.core 3).loops,
                pc := (queueAt r.job.d r.job.core 3).pc }] } } →
        issuesNow r j = true →
        exec (.glueBegin q status) s = .next { s with dev := issued r j })
    ∧ (∀ (fail : Option Nat), started q [3] false true [] fail.toList s.dev = some r →
      ∀ g, openGlue r.job.d r.job.core = some g →
        ∀ outs j, outs = (g.status, 8) :: g.acts.filterMap (fun a => a.ret.map (fun x => (x, a.width))) →
        j = { r.job with
            d := putGlue { g with commitIssued := true, fail := flightKey r.job.d r.job fail } r.job.d
            writes := outs
            dsts := outs.map (fun o => Region.bench o.1 o.2) } →
        issuesNow r j = true →
        exec (.glueCommit q fail) s = .next { s with dev := settleGlue (4 * q.core + 3) (issued r j) })

/-- The coordinator's events: after its backoff an aborted attempt is staged again; in its turn a glue-up runs clamped
with its lines locked; a deck makes the staged values current; with every deck's acknowledgement the glue-up ends;
and a clamped one that has not committed 50 µs after its fourth abort ends with ERROR (R280 to R283). -/
def Obligations.GlueEventsAct : Prop :=
  ∀ (id : Nat) (g : Glue) (s : State), glueAt s.dev id = some g → id < 640 → id % 4 = 3 →
    (g.phase = .backoff → g.commitIssued = true → g.retryAt ≤ nowNs s.dev →
      ∀ g', g' = { dropAttempt g with phase := .marking, attempts := g.attempts + 1 } →
      exec (.glueBackoff id) s =
        .next { s with dev := settleGlue id (stageAll s.dev 0 g.acts g' (putGlue g' s.dev)) })
    ∧ (g.phase = .waitClamp → g.commitIssued = true → clampTurn s.dev g = true →
      ∀ d g', lockLines id (glueLines g) (putGlue { g with clamped := true, attempts := 5 } s.dev) = (d, true) →
      glueAt d id = some g' →
      exec (.glueClamped id) s =
        .next { s with
          dev := settleGlue id
            (stageAll d 0 g'.acts { dropAttempt g' with marks := g'.marks, phase := .marking }
              (putGlue { dropAttempt g' with marks := g'.marks, phase := .marking } d)) })
    ∧ (∀ cluster, cluster < 20 → g.phase = .committed → cluster ∈ glueDecks s.dev g → cluster ∉ g.acked →
      g.bad = [] →
      exec (.glueApply id cluster true false) s =
        .next { s with dev := putGlue { g with acked := g.acked ++ [cluster] } (putLines [cluster] g.staged s.dev) })
    ∧ (g.phase = .committed → (∀ k ∈ glueDecks s.dev g, k ∈ g.acked) →
      exec (.glueRelease id) s = .next { s with dev := finishGlue g s.dev })
    ∧ (4 ≤ g.counted → g.commitIssued = true → g.clampAt + 50000 ≤ nowNs s.dev →
      exec (.glueTimeout id) s =
        .next { s with
          dev := errorAbort g (raiseFields glueTimeoutCls (unitCluster (g.core / 8)) (some g.ctx)
            [(g.core / 8, 5), (g.marks.length, 5)] s.dev) })

/-! ### Training numerics (R138, R141, R147) -/

/-- ZSTEP sets its core's ZHV.STEP or adds 1 to it, ZFILL writes the Zhevud values of its positions or the mask of
those that reach THRESH, and GAUGE_RESET writes a slot with its counters zero. -/
def Obligations.TrainingCommandsIssue : Prop :=
  ∀ (q : QCmd) (s : State) (r : Ready), started q [3] true false [] [] s.dev = some r →
    (∀ v j, j = { r.job with
        zold := some r.job.zstep
        d := modCore r.job.core (fun c => { c with zstep := v }) r.job.d } → issuesNow r j = true →
      exec (.zstep q (.set v)) s = .next { s with dev := issued r j })
    ∧ (∀ j, r.job.zstep ≠ BitVec.allOnes 64 →
      j = { r.job with
        zold := some r.job.zstep
        d := modCore r.job.core (fun c => { c with zstep := c.zstep + 1 }) r.job.d } →
      issuesNow r j = true →
      exec (.zstep q .inc) s = .next { s with dev := issued r j })
    ∧ (∀ (f : ZfillF) (a len : Nat) bs j, 1 ≤ f.n → f.n ≤ 2 ^ 24 → f.thresh ≤ 65535 → f.ztid < 2 ^ 24 →
      0 ≤ steppedVal r.job.loops f.zorg → steppedVal r.job.loops f.zorg + f.n ≤ 2 ^ 43 →
      steppedVal r.job.loops f.dst = (a : Int) → len = (if f.mask then (f.n + 7) / 8 else 2 * f.n) →
      a % (if f.mask then 8 else 2) = 0 → a + len ≤ benchSize →
      bs = zfillBytes f (benchLe r.job.d r.job.core a len) (zfillVals f r.job) →
      j = { r.job with
        d := benchWrite r.job.core a bs r.job.d
        writes := (a, len) :: r.job.writes
        dsts := Region.bench a len :: r.job.dsts } → issuesNow r j = true →
      exec (.zfill q f) s = .next { s with dev := issued r j })
    ∧ (∀ (f : GaugeResetF) slot w j, fmtKnown f.fmt = true → f.ewidth ≤ 3 → (f.panel = true → fmtPanelOk f.fmt = true) →
      f.gslot ≤ 65535 → slot = gaugeSlotNo f.gslot f.fmt → (slot < 10 ∨ 15 < slot) →
      slot < (ctxAt r.job.d r.job.ctx).gaugeCount →
      w = (if f.ebase = 0x8000#16 then gaugeDefault f.fmt f.panel else (f.ewidth, f.ebase.toInt)) →
      putWrites false ((List.range 5).map (fun i : Nat =>
        (⟨((gaugeAddr r.job.d r.job.ctx slot + 64 * i : Nat) : Int) * 8, 512,
          leAt (gaugeSlotBytes f.fmt f.panel w) (64 * i) 64⟩ : BitWrite))) r.job = .ok j → issuesNow r j = true →
      exec (.gaugeReset q f) s = .next { s with dev := issued r j })

/-! ### The Planer (R154 to R168) -/

/-- PLANE hands its checked operands to the Planer of its cluster and stays in flight; with no panels it is done at
once. A Planer serves the first held PLANE that it may for one panel. A panel that is absent or frozen whole is passed over;
another takes its lines first, or keeps its masks and its place at the back of the round; with its lines a panel done
commits its writes and counts, a skipped one changes no state of its tensors, and either goes on to the next panel or ends
the PLANE; and a deck that cannot
apply (log entry 44) ends the PLANE with a failure that names the panel. -/
def Obligations.PlanerActs : Prop :=
  (
    ∀ (q : QCmd) (f : PlaneF) (s : State) (r : Ready) ds cfgs j1 j2,
      started q [3] true false [] [] s.dev = some r → planeDecodeOk f = true →
      planeDescs r.job [some f.g, some f.p, f.off, some f.mm, f.vv] = .ok ds →
      j1 = ([some f.g, some f.p, f.off, some f.mm, f.vv].filterMap id).foldl
        (fun j h => j.tableRead (steppedVal j.loops h)) r.job →
      planeOperandsOk f ds = true → planeWritable ds = true → planeGauges f ds j1 = .ok (cfgs, j2) →
      (f.nPanels = 0 → issuesNow r j2 = true → exec (.plane q f) s = .next { s with dev := issued r j2 })
      ∧ (f.nPanels ≠ 0 →
        (∀ p ∈ mapGet [] j2.d.planers (j2.core / 8), ¬ (p.core = j2.core ∧ p.ctx = j2.ctx)) →
        ∀ p j, p = ({
            core := j2.core, ctx := j2.ctx, tag := j2.cmd.tag, cmd := some f
            descs := [some f.g, some f.p, f.off, some f.mm, f.vv].map (descImage j2)
            cfgs := cfgs, zstep := j2.zstep, loops := j2.loops } : PlanerJob) →
        j = { j2 with
            held := true
            later := true
            d := { j2.d with
              planers := mapPut [] (j2.core / 8) (mapGet [] j2.d.planers (j2.core / 8) ++ [p]) j2.d.planers } } →
        issuesNow r j = true →
        exec (.plane q f) s = .next { s with dev := issued r j }))
  ∧ (
    ∀ (cluster : Nat) (s : State) p idle tail f panel t present frozen j1, cluster < 20 →
      mapGet [] s.dev.planers cluster = idle ++ p :: tail →
      (∀ x ∈ idle, panelReady s.dev cluster x = false) → panelReady s.dev cluster p = true →
      panelTens p = some (f, panel, t) →
      (match p.mask with
        | some fb => Except.ok (true, fb, planeJob p s.dev)
        | none => panelMasks f panel t.n (planeJob p s.dev)) = .ok (present, frozen, j1) →
      (present = false ∨ (∀ b ∈ frozen, b = true) →
        exec (.planerPanel cluster) s = .next { s with dev := panelNext cluster p (tail ++ idle) j1.d })
      ∧ (present = true → (∃ b ∈ frozen, b = false) → ∀ lines j2 taken d,
        glueLinesOf (panelRanges f panel t) j1 = .ok (lines, j2) →
        takeLines (panelGlue p j2.d) lines j2.d = (taken, d) →
        (taken = false →
          exec (.planerPanel cluster) s =
            .next { s with dev := { d with
              planers := mapPut [] cluster (tail ++ idle ++ [{ p with mask := some frozen }]) d.planers } })
        ∧ (taken = true → deckCannot d lines = true →
          exec (.planerPanel cluster) s = .next { s with dev := planeFail p { cls := poisonCls } d })
        ∧ (taken = true → deckCannot d lines = false →
          (∀ e, panelWork p f panel t frozen { j2 with d := d } = .ok (.skipped e) →
            exec (.planerPanel cluster) s = .next { s with dev := panelNext cluster p (tail ++ idle) e })
          ∧ (∀ j, panelWork p f panel t frozen { j2 with d := d } = .ok (.done j) →
            exec (.planerPanel cluster) s =
              .next { s with dev := panelNext cluster { p with gauge := p.gauge ++ j.gauge } (tail ++ idle) j.d }))))

/-! ### The Dovetail channels (R289 to R309) -/

/-- DV_POST puts a descriptor's address behind those that its context's channel holds. COPY and SEND make the accesses
that their descriptor has due and then one beat at a time,
a read of a source line while the staging buffer has room for it and else a write of what it holds (log entry 41); MINT reads its image and writes the named descriptor, or keeps the
code of a failed mint for DV.ERR; RESUME and FLUSH act on a halted descriptor, complete themselves and use up one post; a descriptor whose work is
done ends; a retry tries the access again once its wait is over; a paused paced channel reads its peer's index; and an engine
grants one beat to the channel that R301 picks. -/
def Obligations.DovetailActs : Prop :=
  (
    ∀ (q : QCmd) (engine channel addr : Nat) (s : State) (r : Ready),
      started q [3] true false [] [] s.dev = some r →
      engine < 40 → channel < 16 → addr % 64 = 0 → addr < 2 ^ 48 →
      (chanAt r.job.d (16 * engine + channel)).owner = some r.job.ctx →
      (chanAt r.job.d (16 * engine + channel)).posted.length < 16 →
      ∀ j, j = { r.job with
          imm := true
          d := modChan (16 * engine + channel)
            (fun ch => { ch with posted := ch.posted ++ [(addr, r.job.cmd.tag)] }) r.job.d } →
      issuesNow r j = true →
      exec (.dvPost q engine channel addr) s = .next { s with dev := issued r j })
  ∧ (
    ∀ (s : State) (chan : Nat), chan < 640 →
      (∀ n kind ctx x r d d2, kind = 0 ∨ kind = 1 → d = dvSettle chan 12 (dvStart chan [kind] s.dev) →
        runKind d chan = some kind → dvReady d chan = some (ctx, x, r) →
        (if dvFetch x r ≠ 0 then fetchLine chan ctx x r d
          else if kind = 0 then copyLine chan ctx x r d else sendLine chan ctx x r d) = .ok d2 →
        exec (if kind = 0 then .copy chan (n + 1) none else .send chan (n + 1) none) s =
          .next { s with dev := dvBeats chan n none d2 })
      ∧ (∀ ctx r x d bs code d2 d3, d = dvSettle chan 12 (dvStart chan [2] s.dev) → chanOwner d chan = some ctx →
        (chanAt d chan).run = some r → x = parseDv r.desc → x.kind = 2 → r.halted = false → r.retryAt = none →
        r.due = [] → r.moved = 0 →
        mintSource chan ctx x 5 0 d = .ok (bs, d2) → (∀ b ∈ bs, b.2 = false) →
        mintAt ctx (x.dst % 65536) (bs.map (·.1)) d2 = .ok (code, d3) →
        exec (.mint chan) s = .next { s with
          dev := modRun chan (fun r => { r with moved := 1, code := code, tries := 0 })
            (if code = 0 then d3 else mintRecord chan ctx r code (x.dst % 65536) d3) })
      ∧ (∀ kind ctx i addr tag bs d d2 d3, kind = 3 ∨ kind = 4 → chanOwner s.dev chan = some ctx →
        nextControl s.dev chan ctx = some (i, addr, tag, kind) → dvTake (chan / 32) ctx addr 64 s.dev = .ok (bs, d) →
        dvDescOk d ctx (parseDv bs) = true → controlAct chan ctx kind d = .ok d2 →
        dvEnd chan ctx { desc := bs, addr := addr, tag := tag } 0 d2 = .ok d3 →
        exec (if kind = 3 then .resume chan else .flush chan) s =
          .next { s with dev := modChan chan (fun ch => { ch with posted := ch.posted.eraseIdx i }) d3 })
      ∧ (∀ ctx r d, chanOwner s.dev chan = some ctx → (chanAt s.dev chan).run = some r → r.halted = false →
        r.retryAt = none → dvWorkDone (parseDv r.desc) r = true →
        dvEnd chan ctx r (chanAt s.dev chan).doneBytes s.dev = .ok d →
        exec (.dvComplete chan) s = .next { s with dev := modChan chan (fun ch => { ch with run := none }) d })
      ∧ (∀ r t d, (chanAt s.dev chan).run = some r → r.retryAt = some t → t ≤ nowNs s.dev →
        d = dvSettle chan 12 (modRun chan (fun r => { r with retryAt := none }) s.dev) →
        exec (.dvRetry chan none) s = .next { s with dev := if r.due = [] then dvBeat chan none d else d })
      ∧ (∀ ctx r, chanOwner s.dev chan = some ctx → (chanAt s.dev chan).run = some r → (parseDv r.desc).pace ≠ 0 →
        r.paused = true → r.halted = false → r.due = [] →
        exec (.dvPacePoll chan) s =
          .next { s with dev := dvSettle chan 8 (modRun chan (fun r => { r with due := [.peer] }) s.dev) })
      ∧ (∀ engine d c level, engine < 40 →
        d = (List.range 16).foldl
          (fun d c => dvSettle (16 * engine + c) 12 (dvStart (16 * engine + c) [0, 1] d)) s.dev →
        dvPick d engine = some (c, level) →
        exec (.dvGrant engine none) s =
          .next { s with
            dev := dvBeat (16 * engine + c) none
              { d with dvRr := mapPut 0 (4 * engine + level) ((c + 1) % 16) d.dvRr } }))

/-! ### Completion, stalls and the deck (R176, R184, R259, R260, R323) -/

/-- The oldest command in flight of a queue completes, flags, trace, gauges and releases with it, and meetings of its
core that it was holding back go on, while its context is resident and, for the started passes of an M queue, while a
switch waits for them; a queue whose head has waited CTX.WDOG_MS faults its context with QSTALL (R106, R176, R180, R323). A
plain access at a line's home deck: a line that the deck holds becomes its most recently used, one that it does not hold takes
a way, writes back what it replaces and is filled with the poison of its memory, and the masked bytes of a write reach the
line (R243, R259, R260). A host line goes on from here; an HBM line first aborts the open glue-ups that have marked it (R279).
A single-bit error in a word of a held line leaves DECK_CE and the line as it is, a double-bit one poisons the deck's line and
leaves DECK_UE (R262; which way the record names is free); and what a command meets in a bench word or a joist row leaves the
record of its class, a double-bit error with the word's or the row's poison (R231, R233). -/
def Obligations.EngineAndDeckEvents : Prop :=
  (
    ∀ (core : Nat) (queue : Queue) (s : State) ctx, core < 160 → (coreAt s.dev core).resident = some ctx →
      (∀ f rest, (ctxAt s.dev ctx).state = .resident ∨ ((ctxAt s.dev ctx).state = .draining ∧ queue = .m) →
        (queueAt s.dev core (queueNo queue)).inflight = f :: rest → f.held = false →
        exec (.commandComplete core queue) s =
          .next { s with
            dev := clampMeet core (drainQueue ctx core (queueNo queue)
              (completeFlight ctx core (queueNo queue) f rest s.dev)) })
      ∧ (∀ t, (ctxAt s.dev ctx).state = .resident → stallSince (queueAt s.dev core (queueNo queue)) = some t →
        t + wdogMs (ctxAt s.dev ctx) * 1000000 ≤ nowNs s.dev →
        exec (.qstall core queue) s =
          .next { s with
            dev := hangTrigger 1 ctx (faultCtx ctx
              { stallRecord s.dev ctx core (queueNo queue) with trig := hangFree s.dev } s.dev) }))
  ∧ (
    ∀ (f : DeckF) (s : State) line d e, f.line < 2 ^ 48 → line = lineOf f.line →
      (f.host = true → d = s.dev) →
      (f.host = false → line < hbmSpan s.dev.hbmc ∧ lineHeld s.dev line = false ∧ d = plainAccess [line] s.dev) →
      f.tagErr = none → f.tagCe = none → f.dataErr = none →
      (f.write = none → deckHolds d f.host line = true → e = deckTouch f.host line false d →
        exec (.deckAccess f) s = .next { s with dev := e })
      ∧ (f.write = none → deckHolds d f.host line = false → f.wbFail < 2 →
        e = deckFill f line (deckTake f.host line false d) → exec (.deckAccess f) s = .next { s with dev := e })
      ∧ (∀ data mask t, f.write = some (data, mask) → f.wbFail < 2 →
        t = deckTake f.host line (mask == BitVec.allOnes 64) d →
        e = deckStore f.host line data mask
          (if deckHolds d f.host line = true ∨ mask = BitVec.allOnes 64 then t else deckFill f line t) →
        exec (.deckAccess f) s = .next { s with dev := e })
      ∧ (∀ v, deckHolds d f.host line = false → (if f.host then !d.hostp.link else hbmLost d line) = false →
        victimOf d (setKey d f.host line) = some v →
        deckTake f.host line false d =
          deckFilled f.host line
            (memPoisoned (match v with | some v => deckEvict v d | none => d) f.host line)
            (match v with | some v => deckEvict v d | none => d))
      ∧ (∀ (data : BitVec 512) (mask : BitVec 64), deckHolds d f.host line = true → writeLost d f.host line = false →
        (if f.host then (deckStore f.host line data mask d).host else (deckStore f.host line data mask d).hbm)
          = memWriteMask (if f.host then d.host else d.hbm) line mask.toNat (leBytes 64 data.toNat)))
  ∧ (
    ∀ (f : DeckF) (s : State) line d bit k, f.line < 2 ^ 48 → line = lineOf f.line → f.tagErr = none → f.tagCe = none →
      (f.host = true → d = s.dev) →
      (f.host = false → line < hbmSpan s.dev.hbmc ∧ lineHeld s.dev line = false ∧ d = plainAccess [line] s.dev) →
      deckHolds d f.host line = true → k = homeDeck d.hbmc f.host line →
      (f.dataErr = some (bit, true) →
        exec (.deckAccess f) s = .next { s with
          dev := deckServe f line (fillPoison f.host line
            (raiseFields deckUe (unitCluster k) none [(k, 5), (line, 48)] d)) })
      ∧ (f.dataErr = some (bit, false) → ∃ way < 12,
        exec (.deckAccess f) s = .next { s with
          dev := deckServe f line (raiseFields deckCe (unitCluster k) none
            [(k, 5), (deckSet line / 512, 4), (deckSet line % 512, 9), (way, 4), (bit, 10)]
            { d with free := d.free + 1 }) }))
  ∧ (
    ∀ core (d : Dev) bit,
      (∀ a, a < benchSize →
        meetUpset core d (.bench a bit true)
            = benchPoison core a 1 (raiseFields benchUe (unitCore core) none [(core, 8), (a / 8 * 8, 21)] d)
        ∧ meetUpset core d (.bench a bit false)
            = raiseFields benchCe (unitCore core) none [(core, 8), (a / 64 % 32, 5), (bit, 7)] d)
      ∧ (∀ row, row < 1024 →
        meetUpset core d (.joist row bit true)
            = setJrow core row { jrow d core row with poison := true }
                (raiseFields joistUe (unitCore core) none [(core, 8), (row, 10)] d)
        ∧ meetUpset core d (.joist row bit false)
            = raiseFields joistCe (unitCore core) none [(core, 8), (row, 10), (bit, 7)] d))

/-! ### The fabric (R381 to R420) -/

/-- A data packet that arrives whole on a routed port goes to this module's own list if it is for this module, and else
to the egress that the routing tables give, one hop on; an egress grants the packet that R408 picks after its expired
packets have gone; expired or overlong waiting packets are dropped; and a control packet for another module goes, one
hop on, to the egress of its source route or of the tables (R381, R394, R400). -/
def Obligations.PacketsMove : Prop :=
  ∀ (s : State) (port : Nat), port < 18 →
    (∀ bs k, (portAt s.dev port).state = .routed → 64 ≤ bs.length → hcrcOk bs = true → (parseData bs).kind ≤ 2 →
      (parseData bs).vc ≤ 4 → lengthOk bs = true → expired (nowNs s.dev) (parseData bs).deadline = false →
      k = ({ bytes := bs, ingress := some port, vc := (parseData bs).vc, inVc := (parseData bs).vc
             at_ := nowNs s.dev } : Pkt) →
      (s.dev.tab.modidValid = true → (parseData bs).dmod = s.dev.tab.modid →
        exec (.dataPacketForward port bs) s =
          .next { s with dev := { s.dev with fab := { s.dev.fab with loc := s.dev.fab.loc ++ [k] } } })
      ∧ (¬ (s.dev.tab.modidValid = true ∧ (parseData bs).dmod = s.dev.tab.modid) → ∀ out vc dlx,
        route s.dev (some port) (parseData bs).epoch (parseData bs).vc (parseData bs).dlx (parseData bs).dmod
          = some (out, vc, dlx) → carries (portAt s.dev out) false = true →
        exec (.dataPacketForward port bs) s =
          .next { s with
            dev := toEgress out { k with
              vc := vc, bytes := setHop vc dlx (((parseData bs).hops + 1) % 32) bs } s.dev }))
    ∧ (∀ d k, d = dropEgress port dropExpired (pktExpired s.dev) s.dev → egressPick d port = some k →
      exec (.egressGrant port) s = .next { s with dev := egressSend port k d })
    ∧ exec (.packetExpiry port) s = .next { s with dev := dropEgress port dropExpired (pktExpired s.dev) s.dev }
    ∧ (s.dev.kt.state = .acquire ∨ s.dev.kt.state = .free →
      ∀ here old, old = (fun (k : Pkt) => decide (k.at_ + 10000 < nowNs s.dev)) →
      here = (fun (k : Pkt) => old k && k.ingress.getD port == port) →
      exec (.packetResidence port) s =
        .next { s with
          dev := dropEgress port dropResidence old ((s.dev.fab.loc.filter here).foldl
            (fun d k => dropWaiting port dropResidence k d)
            { s.dev with fab := { s.dev.fab with loc := s.dev.fab.loc.filter (fun k => !here k) } }) })
    ∧ (∀ (out : Nat) (bs : List Byte) c, linkUp (portAt s.dev port) = true →
        c = parseCtrl bs → bs.length = 64 → ctrlCrcOk bs = true → c.typ ∈ [0x10, 0x11, 0x12, 0x13] → c.loc = false →
        mgHere s.dev c = false → expired (nowNs s.dev) (ctrlDeadline (nowNs s.dev) c.deadline) = false →
        (c.srcrt = true → hopPort (parseMg c.body) c.hops = out ∧ out < 18) →
        (c.srcrt = false → carries (portAt s.dev port) false = true
          ∧ (route s.dev (some port) c.epoch 5 c.dlx c.dmod).map (·.1) = some out) →
        ∀ k, k = ({ bytes := setHop 5 c.dlx ((c.hops + 1) % 32) bs, ctrl := true, ingress := some port, vc := 5, inVc := 5
                    at_ := nowNs s.dev } : Pkt) → carriesPkt (portAt s.dev out) k = true →
        exec (.controlPacketForward port bs) s = .next { s with dev := toEgress out k s.dev })

/-- The oldest delivered packet of a kind, its CRC good and its deadline not over, does its work at this module and frees its buffer: a request
and a scheduled packet write, reduce or operate and answer, a META packet joins its exchange, and a reply writes what
came back (R385, R386, R388, R405, R417). -/
def Obligations.DeliveredPacketsAct : Prop :=
  ∀ (i : Instr) (sel : DataPkt → Bool) work (s : State) k d,
    (i = .request ∧ sel = (fun p => p.kind == 0 && p.rop != 10) ∧ work = arrivePacket)
      ∨ (i = .reply ∧ sel = (fun p => p.kind == 1) ∧ work = arriveReply)
      ∨ (i = .collective ∧ sel = (fun p => p.kind == 2 && p.rop != 10) ∧ work = arrivePacket)
      ∨ (i = .metaCombine ∧ sel = (fun p => p.kind != 1 && p.rop == 10) ∧ work = arrivePacket) →
    nextLocal sel s.dev = some k → dataCrcOk k.bytes = true →
    expired (nowNs s.dev) (parseData k.bytes).deadline = false →
    work k (parseData k.bytes) { s.dev with fab := { s.dev.fab with loc := s.dev.fab.loc.erase k } } = some d →
    exec i s = .next { s with dev := freeBuffer k.ingress k.inVc (flitsOf k.bytes) d }

/-- A live transfer that has timed out withholds its signal, raises XFER_TIMEOUT and leaves a tombstone for 100 µs;
tombstones of transfers and of flags go when their time is over (R315, R320, R321). -/
def Obligations.TransfersExpire : Prop :=
  ∀ (s : State),
    (∀ smod sctx xid t, s.dev.fab.tracks.find? (fun t => t.isFor smod sctx xid) = some t →
      xferOver t (nowNs s.dev) = true →
      exec (.xferTimeout smod sctx xid) s =
        .next { s with
          dev := kzArrival t true (raiseFields xferTimeoutCls unitSwitch (some t.dctx)
            [(smod, 16), (sctx, 12), (xid.toNat, 32), (t.count, 32), (t.total.getD 0, 32)]
            (putTrack { t with tomb := some (nowNs s.dev + 100000) } s.dev)) })
    ∧ (∀ d, exec .tombstoneExpiry s = .next { s with dev := d } →
      d.fab.tracks = s.dev.fab.tracks.filter (fun t => t.tomb.all (fun u => decide (nowNs s.dev < u)))
      ∧ d.fab.tombs = s.dev.fab.tombs.filter (fun t => decide (nowNs s.dev < t.until_))
      ∧ { d with fab := { d.fab with tracks := s.dev.fab.tracks, tombs := s.dev.fab.tombs } } = s.dev)
    ∧ (∃ t, exec .tombstoneExpiry s = .next t)
    ∧ (∀ cluster pflag, cluster < 20 → pflag < 4096 → (pflagAt s.dev (cluster * 4096 + pflag)).tomb = true →
      (pflagAt s.dev (cluster * 4096 + pflag)).tombAt + 100000 ≤ nowNs s.dev →
      exec (.flagTombExpiry cluster pflag) s =
        .next { s with dev := modPflag (cluster * 4096 + pflag) (fun f => { f with tomb := false }) s.dev })

/-! ### Keystone time, timetables and tables (R338 to R369, R402, R438) -/

/-- A mark leaves on a link that is up once in a keystone microsecond, with the offer, the stamps and the echo of R341;
one that arrives whole records its stamps and its offer, the choice of parent follows, and a measured mark of the parent
moves the servo and the lock (R341 to R349). A parent that is no longer eligible is replaced; in holdover the bays hold
once the error bound passes 2 ns, and after KT.HOLD_MS without an eligible port the module is FREE (R347, R349, R352,
R353). -/
def Obligations.TimeActs : Prop :=
  (
    ∀ (s : State) (port : Nat), port < 18 → linkUp (portAt s.dev port) = true →
      ((∀ x ∈ (portAt s.dev port).txStamps.head?, x.2 / 65536000 ≠ s.dev.kt.now / 65536000) →
        ∀ d n, d = (if isRoot s.dev.kt
            then { s.dev with kt := { s.dev.kt with rootSeq := (s.dev.kt.rootSeq + 1) % 2 ^ 32 } } else s.dev) →
        n = ((portAt s.dev port).txSeq + 1) % 65536 →
        exec (.timeMarkSend port) s =
          .next { s with
            dev := modPort port (fun p => { p with
              txSeq := n
              txStamps := ((n, stamp d) :: p.txStamps).take 16
              out := packCtrl { vc := 5, typ := 1, loc := true, sunasg := !d.tab.modidValid, smod := d.tab.modid,
                                body := markBody (ownOffer s.fuse.serial d) (portAt s.dev port) n (stamp d) } }) d })
      ∧ (∀ bs d d', bs.length = 64 → ctrlCrcOk bs = true →
        d' = modPort port (markPort (parseCtrl bs).body (stamp s.dev) (nowNs s.dev)) s.dev →
        d = reselect s.fuse.serial d' →
        ∀ measured, measured = decide ((portAt d' port).marks ≠ (portAt s.dev port).marks) →
        exec (.timeMark port bs) s =
          .next { s with
            dev := if d.kt.parent = some port && measured
              then lockState port (portAt d port).theta (servo (portAt d port).theta d) else d }))
  ∧ (
    ∀ (s : State),
      (∀ port, port < 18 → s.dev.kt.parent = some port → eligible s.dev port = false →
        exec (.portIneligible port) s = .next { s with dev := reselect s.fuse.serial s.dev })
      ∧ (s.dev.kt.state = .holdover →
        exec .holdoverLimit s = .next { s with dev := holdBays s.dev }
        ∧ (s.dev.kt.holdSince + s.dev.kt.holdMs * 1000000 ≤ nowNs s.dev → bestPort s.dev = none →
          exec .holdExpiry s =
            .next { s with dev := holdBays { s.dev with kt := { s.dev.kt with state := .free } } })))

/-- At its apply time a timetable change whose entries are all staged becomes live, a routing change flips RT.EPOCH to
its leaf, and a clock plan of a module in COORD sets its clusters' clocks, unless the power cap holds them all at 0.70 GHz
(log entry 43), and completes; an incomplete change raises its
record and changes no table (R359, R367, R402, R438). -/
def Obligations.ChangesApply : Prop :=
  ∀ (s : State),
    (∀ c, s.dev.tab.ttChange = some c → c.t ≤ nowNs s.dev →
      (c.count ≤ c.staged.length →
        exec .ttApply s = .next { s with dev := { s.dev with tab := { s.dev.tab with
          ttChange := none
          live := c.staged.foldl (fun m e => mapPut 0 e.1 (mapGet 0 s.dev.tab.staging e.1) m) s.dev.tab.live } } })
      ∧ (c.staged.length < c.count →
        exec .ttApply s = .next { s with
          dev := raiseFields ttIncomplete unitTable none (changeFields c)
            { s.dev with tab := { s.dev.tab with ttChange := none } } }))
    ∧ (∀ c, s.dev.tab.rtChange = some c → c.t ≤ nowNs s.dev →
      (c.count ≤ c.staged.length →
        exec .rtApply s = .next { s with dev := { s.dev with tab := { s.dev.tab with
          rtChange := none
          okA := s.dev.tab.okA || s.dev.tab.epoch
          okB := s.dev.tab.okB || !s.dev.tab.epoch
          epoch := !s.dev.tab.epoch
          flipAt := some (nowNs s.dev) } } })
      ∧ (c.staged.length < c.count →
        exec .rtApply s = .next { s with
          dev := raiseFields rtIncomplete unitTable none (changeFields c)
            { s.dev with tab := { s.dev.tab with rtChange := none } } }))
    ∧ (∀ p, s.dev.pwr.plan = some p → p.t ≤ nowNs s.dev → s.dev.pwr.coord = true →
      exec .clockPlanApply s = .next { s with
        dev := pushComp 4096 { seqNo := p.seqNo, kind := 0x23, error := 0 }
          { s.dev with pwr := { s.dev.pwr with plan := none, clocks := if s.dev.pwr.cap < s.dev.pwr.watts ∧ atFloor s.dev.pwr.clocks = true
            then s.dev.pwr.clocks else planClocks p.targets s.dev.pwr.clocks } } })

/-- A clock plan changes each named cluster's clock to 0.70 GHz and 25 MHz for each step, and no other (R438). -/
def Obligations.ClockPlanSetsNamedClocks : Prop :=
  ∀ (targets : List Nat) (clocks : SMap Nat) (k : Nat), targets.length = 20 → mapOk 70 clocks = true →
    mapGet 70 (planClocks targets clocks) k =
      (if k < 20 ∧ targets.getD k 63 ≠ 63 then 28 + targets.getD k 63 else mapGet 70 clocks k)

/-! ### Links (R372 to R375, R393, R408, R409) -/

/-- A dark or training port whose peer shows on all lanes or on one half of them enters LOCAL with its coefficients
saved, and on fewer lanes stays training; a port in service retrains, and one that retrains comes up again. -/
def Obligations.LinksTrain : Prop :=
  ∀ (s : State) (port lanesOk : Nat), port < 18 → fabricOn s.dev = true → (portAt s.dev port).kept = false →
    (∀ serial peerPort, 4 ≤ popCount 8 lanesOk → linkUp (portAt s.dev port) = false →
      (∀ half, lanesWidth lanesOk = some half →
        exec (.linkDetect port lanesOk serial peerPort) s =
          .next { s with
            dev := (if leAt (portAt s.dev port).peer 0 8 = serial.toNat
                  ∧ bitsOf (leAt (portAt s.dev port).peer 8 8) 21 17 = peerPort then id
                else modPort port (fun p => { p with peer := [] }))
              (enterLocal port half (saveCoef port serial peerPort s.dev)) })
      ∧ (lanesWidth lanesOk = none → (portAt s.dev port).state = .dark →
        exec (.linkDetect port lanesOk serial peerPort) s =
          .next { s with dev := modPort port (fun p => { p with state := .training }) s.dev }))
    ∧ (∀ cause, linkUp (portAt s.dev port) = true →
      exec (.linkRetrain port cause lanesOk) s = .next { s with dev := leaveLink port .retrain cause s.dev }
      ∧ exec (.linkDown port) s = .next { s with dev := leaveLink port .retrain causeDown s.dev })
    ∧ (∀ cause half c, (portAt s.dev port).state = .retrain → lanesWidth lanesOk = some half →
      c = (s.dev.run.sec.coefs.find? (fun c => c.port == port)).getD { port := port } →
      exec (.linkRetrain port cause lanesOk) s =
        .next { s with dev := enterLocal port half (saveCoef port c.peerSerial c.peerPort s.dev) })

/-- Control flits of a link that is up. An IDENT that is due leaves with the module's report where the bay is
open and a management credit is there; one that arrives frees its buffer and is kept, and a peer that has changed, or whose report clashes, takes the port out of ROUTED with FAB_IDENT, where another may bring it
into ROUTED. Credit counts that have advanced leave in a link-control flit; arriving ones are taken or, where one is beyond
its buffer, FAB_CREDIT names the first such channel and the port retrains. A retrain request of the peer retrains the port.
Lane status is kept (R374, R375, R393, R408, R409). -/
def Obligations.LinkFlitsAct : Prop :=
  ∀ (s : State) (port : Nat), port < 18 → linkUp (portAt s.dev port) = true →
    (∀ b, b = identBody s.fuse s.dev port → identRoom s.dev port = true →
      (portAt s.dev port).identOut ≠ b ∨ (portAt s.dev port).identAt + 1000000 ≤ nowNs s.dev →
      exec (.identSend port) s =
        .next { s with
          dev := modPort port (fun p => { p with
            identOut := b
            identAt := nowNs s.dev
            sent := p.sent.set 5 ((p.sent.getD 5 0 + 1) % 65536)
            out := packCtrl { vc := 5, typ := 2, loc := true, sunasg := !s.dev.tab.modidValid, smod := s.dev.tab.modid,
                              body := b } }) s.dev })
    ∧ (∀ bs b d old same, bs.length = 64 → ctrlCrcOk bs = true → b = (parseCtrl bs).body →
      d = modPort port (fun p => { p with peer := b }) (freeBuffer (some port) 5 1 s.dev) → old = (portAt s.dev port).peer →
      same = decide (leAt old 0 8 = leAt b 0 8 ∧ bitsOf (leAt old 8 8) 21 17 = bitsOf (leAt b 8 8) 21 17) →
      (old ≠ [] → same = false →
        exec (.ident port bs) s =
          .next { s with
            dev := identRecord port b
              (modPort port (fun p => { p with routedBit := false }) (leaveRouted port causeIdent d)) })
      ∧ (old = [] ∨ same = true →
        exec (.ident port bs) s =
          .next { s with
            dev := if identClash s.fuse d b then identRecord port b (leaveRouted port causeIdent d)
              else tryRouted s.fuse port d }))
    ∧ (∀ n freed, n = ((portAt s.dev port).lcSeq + 1) % 256 → freed = (portAt s.dev port).ownFreed →
      freed ≠ (portAt s.dev port).told →
      exec (.creditSend port) s =
        .next { s with
          dev := modPort port (fun p => { p with
            lcSeq := n
            told := freed
            out := packLc (leBytes 8 (packFields [(1, 8), (n, 8)])
              ++ leBytes 8 (packFields [(freed.getD 0 0, 16), (freed.getD 1 0, 16), (freed.getD 2 0, 16),
                  (freed.getD 3 0, 16)])
              ++ leBytes 8 (packFields [(freed.getD 4 0, 16), (freed.getD 5 0, 16)])) }) s.dev })
    ∧ (∀ bs freed, lcOk bs = true → leAt bs 0 1 = 1 → freed = (List.range 6).map (fun i => leAt bs (8 + 2 * i) 2) →
      ((∀ v < 6, ((portAt s.dev port).sent.getD v 0 + 65536 - freed.getD v 0) % 65536 ≤ vcBuffer v) →
        exec (.credit port bs) s = .next { s with dev := modPort port (fun p => { p with freed := freed }) s.dev })
      ∧ (∀ v < 6, vcBuffer v < ((portAt s.dev port).sent.getD v 0 + 65536 - freed.getD v 0) % 65536 →
        (∀ w < v, ((portAt s.dev port).sent.getD w 0 + 65536 - freed.getD w 0) % 65536 ≤ vcBuffer w) →
        exec (.credit port bs) s =
          .next { s with
            dev := leaveLink port .retrain causeCredit (raiseFields fabCredit (unitPort port) none
              [(port, 8), (v, 3), (freed.getD v 0, 16), ((portAt s.dev port).sent.getD v 0, 16)] s.dev) }))
    ∧ (∀ bs, lcOk bs = true → leAt bs 0 1 = 2 →
      exec (.retrain port bs) s = .next { s with dev := leaveLink port .retrain causePeer s.dev })
    ∧ (∀ bs, lcOk bs = true → leAt bs 0 1 = 3 →
      exec (.lanes port bs) s =
        .next { s with dev := modPort port (fun p => { p with laneOk := leAt bs 8 2 }) s.dev })

/-- A received frame on a link that is up: a clean one gives each of its eight slots to what it carries, a corrected one
counts its corrected symbols and raises FAB_FEC_CE with the lane of the first before its slots, and an uncorrectable one
drops the packet under way with FAB_FEC_UE, and makes the port retrain beyond 16 of them in a millisecond
(R374, R377, R378). -/
def Obligations.FramesArrive : Prop :=
  ∀ (s : State) (port : Nat) (bs : List Byte), port < 18 → linkUp (portAt s.dev port) = true → bs.length = 544 →
    (∀ out, decodeFrame bs = some (out, []) →
      exec (.frame port bs) s =
        .next { s with
          dev := (List.range 8).foldl (fun d k =>
            slotArrive s.fuse port (out.getD (512 + k) 0).toNat ((out.drop (64 * k)).take 64) d) s.dev })
    ∧ (∀ out j js d, decodeFrame bs = some (out, j :: js) →
      d = raiseFields fabFecCe (unitPort port) none [(port, 8),
          (if (portAt s.dev port).half then j / 4 % 4 else j / 4 % 8, 8), (js.length + 1, 32)]
        (modPort port (fun p => { p with corrected := p.corrected + (js.length + 1) }) s.dev) →
      exec (.frame port bs) s =
        .next { s with
          dev := (List.range 8).foldl (fun d k =>
            slotArrive s.fuse port (out.getD (512 + k) 0).toNat ((out.drop (64 * k)).take 64) d) d })
    ∧ (decodeFrame bs = none → exec (.frame port bs) s = .next { s with dev := badFrame port s.dev })

/-! ### Management packets (R394, R395, R400, R402, R540 to R542) -/

/-- What each management row takes: the port and flit, the packet types, and what it asks of the body. -/
def mgmtRow : Instr → Option (Option Nat × List Byte × List Nat × (MgBody → Bool))
  | .mgmtWrite p b => some (p, b, [0x10], fun _ => true)
  | .mgmtRead p b => some (p, b, [0x11], fun _ => true)
  | .mgmtReply p b => some (p, b, [0x12], fun _ => true)
  | .mgmtAssign p b => some (p, b, [0x13], fun _ => true)
  | .portRouted p b => some (p, b, [0x10], fun m => decide (0x2000 ≤ m.addr ∧ m.addr < 0x2090))
  | .portRetrain p b => some (p, b, [0x10], fun m => decide (0x2000 ≤ m.addr ∧ m.addr < 0x2090) && bitOf m.data 1)
  | .rtDecl p b => some (p, b, [0x10], fun m => decide (0x4000 ≤ m.addr ∧ m.addr < 0x4008))
  | .ttDecl p b => some (p, b, [0x10], fun m => decide (0x4010 ≤ m.addr ∧ m.addr < 0x4018))
  | .routingEntryStage p b => some (p, b, [0x10], fun m => decide (0x1000000 ≤ m.addr ∧ m.addr < 0x1900000))
  | .timetableStage p b => some (p, b, [0x10], fun m => decide (0x2000000 ≤ m.addr ∧ m.addr < 0x2120000))
  | _ => none

/-- A whole management packet that has reached its module in time is served: a request does its read, write or
assignment and its one reply leaves by the source route or the tables, a reply reaches the fabric-manager mailbox, and
the port's buffer is freed. -/
def Obligations.ManagementServed : Prop :=
  ∀ (i : Instr) (s : State) port bs types want, mgmtRow i = some (port, bs, types, want) →
    (∀ n ∈ port, n < 18 ∧ linkUp (portAt s.dev n) = true) → bs.length = 64 → ctrlCrcOk bs = true →
    (parseCtrl bs).typ ∈ types → want (parseMg (parseCtrl bs).body) = true → mgHere s.dev (parseCtrl bs) = true →
    expired (nowNs s.dev) (ctrlDeadline (nowNs s.dev) (parseCtrl bs).deadline) = false →
    exec i s = .next { s with dev := freeBuffer port 5 1 (mgDeliver s.fuse (parseCtrl bs) bs s.dev) }

/-- What serving a request does: MGMT_ASSIGN gives the module its identifier and hall, MGMT_READ answers the eight or
sixteen bytes of its address, and MGMT_WRITE to a port's control word sets its routed bit, by which the port enters or
leaves ROUTED. -/
def Obligations.ManagementEffects : Prop :=
  ∀ (f : Fuse) (c : CtrlPkt) (d : Dev),
    (c.typ = 0x13 → (mgServe f c d).2 =
      { d with tab := { d.tab with
        modid := (parseMg c.body).data % 2 ^ 16
        modidValid := true
        hall := bitsOf (parseMg c.body).data 63 32 } })
    ∧ (c.typ = 0x11 → ∀ v, winRead f d (parseMg c.body).addr = some v → (parseMg c.body).wide = false →
      (mgServe f c d).1.status = 0 ∧ (mgServe f c d).1.data = v ∧ (mgServe f c d).2 = d)
    ∧ (c.typ = 0x10 → ∀ port, port < 18 → (parseMg c.body).addr = 0x2000 + 8 * port → (parseMg c.body).wide = false →
      (mgServe f c d).1.status = 0 ∧ (mgServe f c d).2 = writePort f port (parseMg c.body).data d)

/-- A fabric-manager command sends its 1 to 512 requests in order; one written while another runs sets FM_OVERRUN; and a
request without a reply for 1 ms gets a slot with status 0xFF, the last of them ending the command (R540). -/
def Obligations.FabricManagerActs : Prop :=
  ∀ (s : State),
    (regsOpen s.dev = true →
      (∀ count, s.dev.pier.fmBusy = [] → 1 ≤ count → count ≤ 512 →
        exec (.fmCmd count) s =
          .next { s with
            dev := (List.range count).foldl (fmSend s.fuse)
              { s.dev with pier := { s.dev.pier with fmDone := false, fmOverrun := false } } })
      ∧ (∀ count, s.dev.pier.fmBusy ≠ [] →
        exec (.fmCmd count) s = .next { s with dev := { s.dev with pier := { s.dev.pier with fmOverrun := true } } }))
    ∧ (∀ slot r d left, s.dev.pier.fmBusy.find? (fun r => r.1 == slot) = some r → r.2.2 + 1000000 ≤ nowNs s.dev →
      d = hostPut (s.dev.pier.fmBuf + 0x8000 + 64 * slot)
        (packCtrl { typ := 0x12, smod := s.dev.tab.modid, body := packMg { seqNo := r.2.1, op := 2, status := 0xFF } })
        s.dev →
      left = d.pier.fmBusy.filter (fun x => x.1 != slot) →
      exec (.fmReplyTimeout slot) s =
        .next { s with
          dev := if left = [] then attnSet 11 { d with pier := { d.pier with fmBusy := [], fmDone := true } }
            else { d with pier := { d.pier with fmBusy := left } } })

/-! ### Rings and descriptors (R429 to R444) -/

/-- The re-read of a live ring's doorbell line takes both counts; with SQ_TAIL in range the new descriptors may be taken.
The next descriptor is taken when a completion slot is sure to await it; without one the ring stalls with ATTN.CQ_FULL;
and the oldest completion becomes the ring's next record, its 32 bytes written with ATTN.COMPLETION set. -/
def Obligations.RingsMove : Prop :=
  (
    ∀ (s : State) (ring : Nat) x tail head d d2, ring ≤ 4096 → x = ringAt s.dev ring → x.live = true →
      x.snooped = true → x.halted = false → s.dev.hostp.link = true → linePoisoned s.dev true x.db = false →
      tail = BitVec.ofNat 32 (readMemLe s.dev true x.db 4) → head = BitVec.ofNat 32 (readMemLe s.dev true (x.db + 4) 4) →
      (tail - x.sqHead).toNat ≤ 2 ^ x.sqLog2 → (x.sqTail - x.sqHead).toNat ≤ (tail - x.sqHead).toNat →
      d = modRing ring (fun x => { x with snooped := false, cqHead := head, stall := false }) s.dev →
      d2 = (if ringCaptured d ring then
          kzRecord 2 ((ringCtx ring).getD 0) (packFields [(tail.toNat, 32), (head.toNat, 32)]) 0 [] d else d) →
      exec (.doorbellReread ring) s =
        .next { s with
          dev := modRing ring (fun x => { x with sqTail := tail })
            (if d2.hostp.rings.any (fun y => y.2.live && y.2.snooped) then d2
              else { d2 with hostp := { d2.hostp with reread := false } }) })
  ∧ (
    ∀ (s : State) (ring : Nat) x, ring ≤ 4096 → x = ringAt s.dev ring →
      (s.dev.pwr.phase = .ready → s.dev.hostp.link = true → s.dev.hostp.reread = false → x.live = true → x.halted = false →
        x.drop = false → x.sqHead ≠ x.sqTail →
        ((x.sqHead - x.cqHead).toNat < 2 ^ x.cqLog2 → ∀ a e d, a = x.sqBase + 64 * (x.sqHead.toNat % 2 ^ x.sqLog2) →
          e = parseSd (readMem s.dev true a 64) → linePoisoned s.dev true a = false →
          d = modRing ring (fun x => { x with taken := x.taken ++ [e] })
            (modRing ring (fun x => { x with sqHead := x.sqHead + 1, stall := false }) s.dev) →
          exec (.descriptorTake ring) s =
            .next { s with dev := settleRing ring (if e.group = 0 then kzSubmit ring (x.sqHead + 1) e d else d) })
        ∧ (2 ^ x.cqLog2 ≤ (x.sqHead - x.cqHead).toNat → x.stall = false →
          exec (.descriptorTake ring) s =
            .next { s with dev := attnSet 3 (modRing ring (fun x => { x with stall := true }) s.dev) }))
      ∧ (∀ c cs d e b, x.comps = c :: cs → s.dev.hostp.link = true → d = attnSet 0 s.dev → b = compBytes d x c →
        e = settleRing ring
          (hostPut b.1 b.2 (modRing ring (fun x => { x with comps := cs, cqWritten := x.cqWritten + 1 }) d)) →
        exec (.completionRecord ring) s =
          .next { s with
            dev := if (ringAt e ring).drop && (ringAt e ring).comps == [] && (ringAt e ring).taken == []
                && !ringBusy e ring then dropRing ring e else e }))

/-- The descriptors that complete at once, by kind. -/
def simpleRow : Instr → Option (Nat × Nat)
  | .nopDescriptor r => some (r, 0x01)
  | .flagSet r => some (r, 0x11)
  | .flagClr r => some (r, 0x12)
  | .flagMap r => some (r, 0x14)
  | .flagUnmap r => some (r, 0x15)
  | .descMint r => some (r, 0x16)
  | .write64 r => some (r, 0x17)
  | _ => none

/-- The front descriptor of its kind that may start does its work and completes with HOST_OK, or with the code that
refuses it; XLATE_FLUSH drops its context's cached translations of the range; FLAG_WAIT completes when its flag is set
and waits otherwise, after those that already wait have looked again. -/
def Obligations.DescriptorsComplete : Prop :=
  ∀ (s : State) (x : Desc),
    (∀ i ring kind, simpleRow i = some (ring, kind) → ring ≤ 4096 → startable ring kind s.dev = some x →
      (∀ d e, takeMember false ((ringCtx ring).getD 0) x s.dev = (.ok d, e) →
        exec i s = .next { s with dev := settleRing ring (complete ring x 0 0 (popTaken ring 1 d)) })
      ∧ (∀ code d, takeMember false ((ringCtx ring).getD 0) x s.dev = (.err code, d) →
        exec i s = .next { s with dev := settleRing ring (complete ring x code 0 (popTaken ring 1 d)) }))
    ∧ (∀ ring, ring ≤ 4096 → startable ring 0x18 s.dev = some x → descBad x = false →
      bitsOf x.word 111 64 + bitsOf x.word 191 128 ≤ 2 ^ 48 →
      exec (.xlateFlush ring) s =
        .next { s with
          dev := settleRing ring (complete ring x 0 0 (popTaken ring 1
            (flushRange ((ringCtx ring).getD 0) (bitsOf x.word 111 64) (bitsOf x.word 191 128) s.dev))) })
    ∧ (∀ ring d, ring ≤ 4096 → d = lookAll ring ((ringCtx ring).getD 0) s.dev → startable ring 0x13 d = some x →
      descBad x = false → longCount d ring < 64 →
      (∀ code e, lookWait ((ringCtx ring).getD 0) x d = some (code, e) →
        exec (.flagWait ring) s = .next { s with dev := settleRing ring (complete ring x code 0 (popTaken ring 1 e)) })
      ∧ (lookWait ((ringCtx ring).getD 0) x d = none →
        exec (.flagWait ring) s =
          .next { s with
            dev := settleRing ring
              (modRing ring (fun r => { r with waiting := r.waiting ++ [x] }) (popTaken ring 1 d)) }))

/-- A LAUNCH takes its table and waits for its context and its time; when both have come the queues of its entries that no
earlier launch keeps start, the first time of them fixes its keystone time, and one that names no queue completes. A group
of a bad form completes with its code; another takes its lines first, or stays open; its members then take effect together,
its launches after the others, or none of them does and each completes with the code of what failed (R176, R361, R439,
R441, R442). -/
def Obligations.LaunchesAndGroups : Prop :=
  ∀ (s : State),
    (∀ ring x d, ring ≤ 4096 → startable ring 0x10 s.dev = some x → descBad x = false →
      bitsOf x.word 111 64 % 64 = 0 → longCount s.dev ring < 64 →
      startLaunch ring ((ringCtx ring).getD 0) x s.dev = .ok d →
      exec (.launch ring) s = .next { s with dev := settleRing ring (popTaken ring 1 d) })
    ∧ (∀ ctx seq l free now l' d e, ctx < 4096 →
      (ctxAt s.dev ctx).launches.find? (fun l => l.seqNo == seq && (!l.begun || l.entries != [])) = some l →
      (ctxAt s.dev ctx).state = .resident → (l.begun = false → launchReady s.dev ctx l = true) →
      free = (fun (e : Nat × Nat) => !(queueAt s.dev (e.1 / 4) (e.1 % 4)).running
        && !((ctxAt s.dev ctx).launches.takeWhile (fun m => m != l)).any (fun m => m.left.contains e.1)) →
      now = l.entries.filter free → now ≠ [] ∨ l.entries = [] →
      l' = { l with
        begun := true, late := l.late || launchLate s.dev l, first := if l.begun then l.first else s.dev.kt.now
        entries := l.entries.filter (fun e => !free e) } →
      d = modCtx ctx (fun x => { x with launches := x.launches.map (fun m => if m == l then l' else m) })
        (now.foldl (fun d e => startQueue d l (l.start.getD l'.first) e) s.dev) →
      e = (if l'.late && !l.late
        then { d with kt := { d.kt with lateLaunches := min (d.kt.lateLaunches + 1) (2 ^ 32 - 1) } } else d) →
      ∀ f, f = (if l.begun then e
        else kzFor 3 ctx l.seqNo.toNat ((l.left.map (· / 4)).eraseDups).length (sm3Bytes l.table) e) →
      exec (.launchStart ctx seq) s =
        .next { s with
          dev := if l.left = [] then pushComp l.ring (launchComp l' 0)
              (modCtx ctx (fun x => { x with launches := x.launches.filter (fun m => m != l'), ran := true }) f)
            else f })
    ∧ (∀ ring xs good, ring ≤ 4096 → groupFront ring s.dev = some (xs, good) →
      (groupError ring xs good ≠ 0 →
        exec (.submissionGroup ring) s =
          .next { s with
            dev := groupFails ring 9 xs (xs.map (fun _ => groupError ring xs good))
              (groupRecord ring (groupError ring xs good) (xs.headD {}) s.dev) })
      ∧ (groupError ring xs good = 0 → groupReady s.dev ring = true → ∀ lines taken d,
        groupLines ((ringCtx ring).getD 0) s.dev xs = some lines →
        takeLines (groupGlue ring s.dev) lines s.dev = (taken, d) →
        (taken = false → exec (.submissionGroup ring) s = .next { s with dev := d })
        ∧ (taken = true → deckCannot d lines = true →
          exec (.submissionGroup ring) s = .next { s with dev := groupFails ring 8 xs (xs.map (fun _ => 0)) d })
        ∧ (taken = true → deckCannot d lines = false → ∀ codes e base,
          runMembers ((ringCtx ring).getD 0) xs d d [] = some (codes, e, base) →
          ((∀ c ∈ codes, c = 0) → ∀ f,
            f = settleRing ring (popTaken ring xs.length (groupCapture ring xs (endGlue (hostGlue ring) e))) →
            exec (.submissionGroup ring) s =
              .next { s with
                dev := startLaunches ring ((ringCtx ring).getD 0) (xs.filter (fun x => x.kind == 0x10))
                  ((xs.filter (fun x => x.kind != 0x10)).foldl (fun d x => complete ring x 0 0 d) f) })
          ∧ ((∃ c ∈ codes, c ≠ 0) → glueSpace ∉ codes →
            exec (.submissionGroup ring) s =
              .next { s with dev := groupFails ring (if poisonCls ∈ codes then 7 else 9) xs codes base }))))

/-! ### Contexts (R325 to R336, R440) -/

/-- CTX_CREATE of a checked image installs its context, CTX_DESTROY ends one, CTX_SWITCH begins the drain of a resident
context, and CLOCK_PLAN keeps a checked plan, each with the completion that follows. A waiting context takes free cores,
or has the first resident holder that must yield to it switched out; when the work in flight of a switch has stopped, its
outgoing context is saved, its incoming one takes the cores, and a commanded switch completes (R329, R334). -/
def Obligations.ContextsAct : Prop :=
  (
    ∀ (s : State) (x : Desc), descBad x = false →
      (∀ ctx a, startable 4096 0x20 s.dev = some x → ctx = bitsOf x.word 75 64 → a = bitsOf x.word 175 128 →
        a + 256 ≤ 2 ^ 48 → (firstPoison s.dev true a 256).isSome = false →
        createError s.fuse s.dev ctx (readMem s.dev true a 256) (parseCtx (readMem s.dev true a 256)) = 0 →
        ∀ d, installCtx ctx (readMem s.dev true a 256) (parseCtx (readMem s.dev true a 256)) s.dev = some d →
        exec .ctxCreate s =
          .next { s with dev := settleRing 4096 (complete 4096 x 0 0 (popTaken 4096 1 d)) })
      ∧ (∀ ctx, startable 4096 0x21 s.dev = some x → ctx = bitsOf x.word 75 64 → (ctxAt s.dev ctx).state ≠ .free →
        rangeHeld s.dev (ctxAt s.dev ctx).flagBase (4 * (ctxAt s.dev ctx).flagCount) = false →
        exec .ctxDestroy s =
          .next { s with
            dev := settleRing 4096 (complete 4096 x 0 0 (popTaken 4096 1 (resideAll (destroyCtx ctx s.dev)))) })
      ∧ (∀ out inn, startable 4096 0x22 s.dev = some x → out = bitsOf x.word 75 64 →
        inn = (if bitOf x.word 95 then none else some (bitsOf x.word 91 80)) → s.dev.hostp.switch = none →
        (ctxAt s.dev out).state = .resident → (∀ i ∈ inn, ctxWaits (ctxAt s.dev i) = true) →
        exec .ctxSwitch s =
          .next { s with dev := settleRing 4096 (popTaken 4096 1 (switchBegin out inn (some x.seqNo) s.dev)) })
      ∧ (startable 4096 0x23 s.dev = some x → s.dev.pwr.plan = none → applyTimeOk s.dev (bitsOf x.word 127 64) = true →
        ∀ ts, ts = (List.range 20).map (fun k => bitsOf x.word (133 + 6 * k) (128 + 6 * k)) →
        (∀ y ∈ ts, y ≤ 42 ∨ y = 63) →
        exec .clockPlan s =
          .next { s with
            dev := settleRing 4096 (popTaken 4096 1 { s.dev with
              pwr := { s.dev.pwr with
                plan := some { t := bitsOf x.word 127 64, targets := ts, seqNo := x.seqNo } } }) }))
  ∧ (
    ∀ (s : State),
      (∀ ctx holders, ctx < 4096 → (ctxAt s.dev ctx).wants = true → ctxWaits (ctxAt s.dev ctx) = true →
        s.dev.hostp.switch = none → mustYield s.dev ctx = false →
        holders = ((coresOf (ctxAt s.dev ctx)).filterMap (fun c => (coreAt s.dev c).resident)).eraseDups →
        (∀ h, holders.find? (fun h => (ctxAt s.dev h).state == .resident
            && (decide ((ctxAt s.dev h).prio < (ctxAt s.dev ctx).prio)
              || ((ctxAt s.dev h).ran && (ctxAt s.dev h).launches == []))) = some h →
          exec (.priorityPreempt ctx) s = .next { s with dev := switchBegin h (some ctx) none s.dev })
        ∧ (holders = [] → exec (.priorityPreempt ctx) s = .next { s with dev := reside ctx s.dev }))
      ∧ (∀ w out q d e, s.dev.hostp.switch = some w → w.out = some out → w.seqNo = some q →
        stillDrains s.dev out = false → (ctxAt s.dev out).state = .draining →
        leaveCores out { s.dev with hostp := { s.dev.hostp with switch := none } } = some e →
        d = resideAll (switchIn w.inn e) →
        exec .switchDrainDone s =
          .next { s with
            dev := settleRing 4096 (pushComp 4096 {
                seqNo := q, kind := 0x22, error := if (ctxAt d out).state = .faulted then (ctxAt d out).faultCode else 0 }
              d) })
)

/-! ### The host link (R256, R257, R423 to R431, R454, R515) -/

/-- A link that is down and may be up trains to a width and a rate, or comes up again with HOST_LINK: every live ring
awaits the re-read of its doorbell line, and held records reach host memory; one that is up may change its width or rate,
or fall. -/
def Obligations.HostLinkMoves : Prop :=
  ∀ (s : State),
    (s.dev.hostp.link = false → hostLinkAllowed s.dev = true →
      (∀ width rate cxl31, linkModeOk width rate cxl31 = true →
        exec (.hostLinkTraining width rate cxl31) s =
          .next { s with
            dev := hostLinkRises { s.dev with
              hostp := { s.dev.hostp with width := width, rate := rate, cxl31 := cxl31 } } })
      ∧ exec .hostLinkUp s = .next { s with dev := hostLinkRises (raise hostLinkCls unitHost none 0 0 s.dev) })
    ∧ (∀ width rate, s.dev.hostp.link = true → linkModeOk width rate s.dev.hostp.cxl31 = true →
      exec (.hostLink width rate) s =
        .next { s with
          dev := raise hostLinkCls unitHost none 0 0
            { s.dev with hostp := { s.dev.hostp with width := width, rate := rate } } })
    ∧ exec .hostLinkDown s = .next { s with dev := { s.dev with hostp := { s.dev.hostp with link := false } } }
    ∧ (s.dev.pwr.phase = .ready → s.dev.hostp.link = true → s.dev.hostp.hdmBase % 2 ^ 28 = 0 →
      s.dev.hostp.hdmSize % 2 ^ 28 = 0 → s.dev.hostp.hdmSize ≤ 63887638528 →
      s.dev.hostp.hdmBase + s.dev.hostp.hdmSize ≤ hbmSpan s.dev.hbmc →
      exec .hdmCommit s = .next { s with dev := { s.dev with hostp := { s.dev.hostp with hdmCommitted := true } } })

/-- Host accesses: a snoop takes a host line from its deck with its latest value, or stores to it with a re-read of the
doorbells that live there, and with the link down none arrives; an access without an answer fills its deck line poisoned on
a read and discards the line's newer value on a write, with HOST_MEM; a read of the window brings a device line to its deck
and returns it with its poison; and a write of the window stores the masked bytes. -/
def Obligations.HostAccessesAct : Prop :=
  ∀ (s : State) (a line : Nat), line = a / 64 * 64 →
    (a < 2 ^ 48 →
      (s.dev.hostp.link = true → ∀ d,
        d = (match deckLine s.dev true line with | some v => deckEvict v s.dev | none => s.dev) →
        exec (.hostSnoop a none) s =
          .next { s with
            dev := { d with hostp := { d.hostp with
              memReply := BitVec.ofNat 512 (readMemLe d true line 64)
              memPoison := mapGet false d.hostPoison line } } }
        ∧ (∀ data mask e, e = hostStore line data mask d →
          exec (.hostSnoop a (some (data, mask))) s =
            .next { s with
              dev := { e with hostp := { e.hostp with
                rings := e.hostp.rings.map (fun x =>
                  (x.1, if x.2.live && x.2.db == line then { x.2 with snooped := true } else x.2)) } } }))
      ∧ (s.dev.hostp.link = false →
        exec (.hostSnoop a none) s = .next s
        ∧ ∀ data mask, exec (.hostSnoop a (some (data, mask))) s =
          .next { s with dev := hostStoreDark line data mask s.dev })
      ∧ ∀ cause,
        exec (.hostAccessTimeout a cause false) s =
          .next { s with
            dev := raiseHostMem line (cause % 256)
              (fillPoison true line (deckTake true line false s.dev)) }
        ∧ (∀ v, deckLine s.dev true line = some v → v.dirty = true →
          exec (.hostAccessTimeout a cause true) s =
            .next { s with dev := raiseHostMem line (cause % 256) (showUnder v (deckDrop true line s.dev)) })
        ∧ ((∀ v ∈ deckLine s.dev true line, v.dirty = false) →
          exec (.hostAccessTimeout a cause true) s = .next { s with dev := raiseHostMem line (cause % 256) s.dev }))
    ∧ (inWindow s.dev line = true → lineHeld s.dev line = false → ∀ p d, p = plainAccess [line] s.dev →
      d = deckTake false line false p →
      exec (.windowRead a) s =
        .next { s with
          dev := { d with hostp := { d.hostp with
            memReply := BitVec.ofNat 512 (readMemLe d false line 64), memPoison := linePoisoned d false line } } }
      ∧ ∀ data mask e, e = deckStore false line data mask p →
        exec (.windowWrite a data mask) s =
          .next { s with
            dev := if e.kz.en && e.kz.hostMem
              then kzRecord 7 0 line 0
                (sm3Bytes (leBytes 8 mask.toNat ++ maskedBytes mask.toNat (leBytes 64 data.toNat))) e
              else e })

/-! ### Start-up, power and pins (R450 to R462, R474, R545 to R559) -/

/-- Each step of start-up follows the step before it and does nothing at any other point; fuses, flash, an image, a die or a
full map-out list that fails its step stops in config-hold with its reason; and with READY the window is active and rings
run. -/
def Obligations.StartupSteps : Prop :=
  ∀ (s : State), s.dev.pwr.mrstLow = false →
    (∀ v, s.dev.pwr.phase = .unpowered → 5600 ≤ v → v ≤ 6400 →
      exec (.powerOn v) s =
        .next { s with dev := { s.dev with pwr := { s.dev.pwr with phase := .softStart, vin := v, started := 0 } } })
    ∧ (∀ v, s.dev.pwr.phase ≠ .unpowered →
      exec (.powerOn v) s = .next { s with dev := { s.dev with pwr := { s.dev.pwr with vin := v } } })
    ∧ (∀ i (p : Phase), (i = .railsGood ∧ p = .softStart) ∨ (i = .fuseRead ∧ p = .railsUp)
        ∨ (i = .loadAndVerify ∧ p = .fuseRead) ∨ ((∃ ok, i = .dieRelease ok) ∧ p = .verified)
        ∨ ((∃ failed, i = .hbmTraining failed) ∧ p = .released) ∨ (i = .hbmZeroing ∧ p = .trained)
        ∨ (i = .ready ∧ p = .zeroed) →
      s.dev.pwr.phase ≠ p → exec i s = .next s)
    ∧ (s.dev.pwr.phase = .softStart →
      exec .railsGood s = .next { s with dev := { s.dev with pwr := { s.dev.pwr with phase := .railsUp } } })
    ∧ (s.dev.pwr.phase = .railsUp → s.fuse.rowsOk = true →
      exec .fuseRead s = .next { s with dev := { s.dev with pwr := { s.dev.pwr with phase := .fuseRead } } })
    ∧ (s.dev.pwr.phase = .railsUp → s.fuse.rowsOk = false →
      exec .fuseRead s = .next { s with dev := enterHold holdFuse 0 0 s.dev })
    ∧ (s.dev.pwr.phase = .fuseRead → s.dev.flash.answers = false →
      exec .loadAndVerify s = .next { s with dev := enterHold holdFlash 0 0 s.dev })
    ∧ (s.dev.pwr.phase = .fuseRead → s.dev.flash.answers = true → ∀ d,
      d = loadSection { s.dev with run := { s.dev.run with
        fwHeader := s.dev.flash.firmware.header, fwBody := s.dev.flash.firmware.body
        optHeader := s.dev.flash.options.header, optBody := s.dev.flash.options.body
        ownerKey := s.dev.flash.ownerKey } } →
      exec .loadAndVerify s =
        .next { s with
          dev := if imageFault s.fuse s.dev 1 s.dev.flash.firmware ≠ 0
              then enterHold (imageFault s.fuse s.dev 1 s.dev.flash.firmware) 1 (imgSvn s.dev.flash.firmware.header) d
            else if imageFault s.fuse s.dev 2 s.dev.flash.options ≠ 0
              then enterHold (imageFault s.fuse s.dev 2 s.dev.flash.options) 2 (imgSvn s.dev.flash.options.header) d
            else if s.dev.pier.holdNext = true then enterHold holdReq 0 0 d
            else { d with pwr := { d.pwr with phase := .verified } } })
    ∧ (s.dev.pwr.phase = .verified → popCount 160 s.dev.run.sec.offline.toNat ≤ 8 →
      exec (.dieRelease true) s = .next { s with dev := { s.dev with pwr := { s.dev.pwr with phase := .released } } })
    ∧ (∀ ok, s.dev.pwr.phase = .verified → ok = false ∨ 8 < popCount 160 s.dev.run.sec.offline.toNat →
      exec (.dieRelease ok) s = .next { s with dev := enterHold holdDie 0 0 s.dev })
    ∧ (∀ failed ch, s.dev.pwr.phase = .released →
      mapoutFailed (bitList 128 0 s.dev.hbmc.overflow.toNat ++ failed.filter (fun c => decide (c < 128))) s.dev = .error ch →
      exec (.hbmTraining failed) s =
        .next { s with
          dev := enterHold holdMapout 0 0 (raiseFields hbmMapoutFull (unitHbm ch) none
            [(stackOf ch, 8), (s.dev.run.sec.mapout.toNat, 128)] s.dev) })
    ∧ (∀ failed d, s.dev.pwr.phase = .released →
      mapoutFailed (bitList 128 0 s.dev.hbmc.overflow.toNat ++ failed.filter (fun c => decide (c < 128))) s.dev = .ok d →
      exec (.hbmTraining failed) s =
        .next { s with
          dev := { d with
            pwr := { d.pwr with phase := .trained }
            hbmc := { d.hbmc with
              active := (List.range 128).filter (fun c => !d.run.sec.mapout.getLsbD c)
              die := Config.dieInterleave d.run.optBody
              overflow := 0 } } })
    ∧ (s.dev.pwr.phase = .trained →
      exec .hbmZeroing s =
        .next { s with
          dev := { s.dev with pwr := { s.dev.pwr with phase := .zeroed }, hbm := [], hbmPoison := [] } })
    ∧ (∀ p c, p < 18 → s.dev.run.sec.coefs.find? (fun c => c.port == p) = some c →
      exec (.fabricTraining [p]) s = .next { s with dev := trainPort p 255 c.peerSerial c.peerPort s.dev })
    ∧ (∀ p, p < 18 → s.dev.run.sec.coefs.find? (fun c => c.port == p) = none →
      exec (.fabricTraining [p]) s = .next { s with dev := trainPort p 0 0 0 s.dev })
    ∧ (s.dev.pwr.phase = .zeroed →
      exec .ready s =
        .next { s with
          dev := { s.dev with
            pwr := { s.dev.pwr with phase := .ready }, hostp := { s.dev.hostp with memActive := true } } })

/-- The input outside its operating window and a removal leave the module unpowered with its flash; PERST# takes only
the host link down; MRST_N low for 10 µs starts a module reset, and its release lets start-up run; a hot sensor slows
its clusters until it reads 3 K below, and beyond its trip the package rails go; in AUTO the clocks follow the power cap,
with every cluster at 0.70 GHz and the cap exceeded PWR_LIMIT is raised in either mode, and in COORD the guard falls back
(R26, R366, R368, R454, R455, R474, R551, R554, R555, R559). -/
def Obligations.PowerAndPinsAct : Prop :=
  ∀ (s : State),
    (∀ v, v < 5400 ∨ 6400 < v →
      exec (.inputLoss v) s =
        .next { s with
          dev := { unpowered s.dev with
            pwr := { (unpowered s.dev).pwr with vin := v, tripCause := if 6600 < v then 5 else 0 } } })
    ∧ (exec .surpriseRemoval s = .next { s with dev := { unpowered s.dev with pwr := {} } })
    ∧ exec .perstAssert s =
      .next { s with
        dev := { s.dev with
          pwr := { s.dev.pwr with perst := true }, hostp := { s.dev.hostp with link := false } } }
    ∧ exec .perstDeassert s = .next { s with dev := { s.dev with pwr := { s.dev.pwr with perst := false } } }
    ∧ (∀ ns, 10000 ≤ ns → railsOn s.dev = true →
      exec (.mrstN ns) s =
        .next { s with dev := moduleReset false { s.dev with pwr := { s.dev.pwr with mrstLow := true } } })
    ∧ (s.dev.pwr.mrstLow = true →
      exec .mrstNRelease s =
        .next { s with
          dev := { s.dev with
            pwr := { s.dev.pwr with mrstLow := false, started := nowNs s.dev }
            resets := s.dev.resets.map (fun j => if 4 ≤ j.domain then { j with since := nowNs s.dev } else j) } })
    ∧ (∀ v, 5400 ≤ v → v ≤ 6400 →
      exec (.inputLoss v) s = .next { s with dev := { s.dev with pwr := { s.dev.pwr with vin := v } } })
    ∧ (∀ ns, ns < 10000 → exec (.mrstN ns) s = .next s)
    ∧ (∀ x t lim d, railsOn s.dev = true → throttleAt x = some lim →
      lim ≤ t ∨ (s.dev.pwr.throttling.getLsbD (sensorBit x) = true ∧ lim - 48 < t) →
      d = fallBack { s.dev with pwr := takeTemp x t s.dev.pwr } →
      exec (.thermalThrottle x t) s =
        .next { s with
          dev := attnSet 8 { d with
            pwr := { d.pwr with
              throttling := d.pwr.throttling ||| BitVec.twoPow 5 (sensorBit x)
              alert := true
              clocks := lowerClocks (slowed x) d.pwr.clocks } } })
    ∧ (∀ x t lim p, railsOn s.dev = true → throttleAt x = some lim → t ≤ lim - 48 →
      s.dev.pwr.throttling.getLsbD (sensorBit x) = true → p = takeTemp x t s.dev.pwr →
      exec (.thermalThrottle x t) s =
        .next { s with
          dev := { s.dev with
            pwr := { p with
              throttling := p.throttling &&& ~~~BitVec.twoPow 5 (sensorBit x)
              clocks := if s.dev.pwr.coord = true ∨ s.dev.pwr.cap < s.dev.pwr.watts
                  ∨ s.dev.pwr.throttling ≠ BitVec.twoPow 5 (sensorBit x)
                then s.dev.pwr.clocks else raiseClocks (slowed x) s.dev.pwr.clocks } } })
    ∧ (∀ x t lim d, railsOn s.dev = true → tripAt x = some lim → lim ≤ t →
      d = s.dev.ports.foldl (fun d (p : Nat × Port) => dropEgress p.1 dropLink (fun _ => true) d)
        { s.dev with pwr := takeTemp x t s.dev.pwr } →
      exec (.thermalTrip x t) s =
        .next { s with
          dev := { moduleCleared false d with
            pwr := { (moduleCleared false d).pwr with phase := .tripped, tripCause := tripCode x, throttling := 0 }
            resets := [] } })
    ∧ (∀ watts, railsOn s.dev = true →
      (s.dev.pwr.coord = false → s.dev.pwr.cap < watts → atFloor s.dev.pwr.clocks = false →
        exec (.powerCapAdjust watts) s =
          .next { s with
            dev := { s.dev with
              pwr := { s.dev.pwr with watts := watts, clocks := lowerClocks allClusters s.dev.pwr.clocks } } })
      ∧ (s.dev.pwr.cap < watts → atFloor s.dev.pwr.clocks = true →
        exec (.powerCapAdjust watts) s =
          .next { s with
            dev := raiseFields pwrLimit unitPower none [(watts, 11), (s.dev.pwr.cap, 11)]
              { s.dev with pwr := { s.dev.pwr with watts := watts } } })
      ∧ (s.dev.pwr.coord = false → watts ≤ s.dev.pwr.cap → s.dev.pwr.throttling = 0 →
        exec (.powerCapAdjust watts) s =
          .next { s with
            dev := { s.dev with
              pwr := { s.dev.pwr with watts := watts, clocks := raiseClocks allClusters s.dev.pwr.clocks } } })
      ∧ (s.dev.pwr.coord = true → (s.dev.pwr.cap < watts → atFloor s.dev.pwr.clocks = false) →
        exec (.powerCapAdjust watts) s =
          .next { s with dev := { s.dev with pwr := { s.dev.pwr with watts := watts } } })
      ∧ (∀ ns, s.dev.pwr.coord = true → s.dev.pwr.cap * 105 < watts * 100 → 1000000 ≤ ns →
        exec (.pwrGuard watts ns) s =
          .next { s with
            dev := raiseFields pwrGuardCls unitPower none [(watts, 11), (s.dev.pwr.cap, 11)]
              { s.dev with
                pwr := { s.dev.pwr with
                  watts := watts, coord := false, fellBack := true
                  clocks := lowerClocks allClusters s.dev.pwr.clocks } } }))

/-- The external reference of a root: an edge with its frame locks the count to the second that the frame names, one whose
second does not follow the last is a loss, an edge without a frame keeps a locked count on the nearest second, a frame is kept
for the edge that it names, a loss of the reference leaves a root without it, and PPS_OUT follows the module's own time (R348,
R548 to R550). Where R339 allows a step the first lock sets the count to that second. -/
def Obligations.ReferenceActs : Prop :=
  ∀ (s : State), refRead s.dev = true →
    (∀ n t d, s.dev.kt.code = some (n, t) → t + 100000000 ≤ nowNs s.dev → nowNs s.dev ≤ t + 900000000 →
      s.dev.kt.refLocked = false ∨ (∀ m ∈ s.dev.kt.lastSecond, m + 1 = n) →
      d = lockRef n { s.dev with kt := { s.dev.kt with
        lastPps := some (nowNs s.dev), code := none, lastSecond := some n } } →
      exec .ppsIn s = .next { s with dev := { d with kt := { d.kt with lastPps := some (nowNs d) } } }
      ∧ d.kt.refLocked = true ∧ d.kt.state = .extref ∧ d.kt.refLeft = (secondUnits n : Int) - d.kt.now
      ∧ (s.dev.kt.refLocked = false → s.dev.kt.refLost = false → stepAllowed s.dev = true →
        d.kt.now = secondUnits n % 2 ^ 80)
      ∧ (s.dev.kt.refLocked = true ∨ s.dev.kt.refLost = true ∨ stepAllowed s.dev = false → d.kt.now = s.dev.kt.now))
    ∧ (∀ n t m, s.dev.kt.code = some (n, t) → t + 100000000 ≤ nowNs s.dev → nowNs s.dev ≤ t + 900000000 →
      s.dev.kt.refLocked = true → s.dev.kt.lastSecond = some m → m + 1 ≠ n →
      exec .ppsIn s =
        .next { s with
          dev := refLose 3 { s.dev with kt := { s.dev.kt with
            lastPps := some (nowNs s.dev), code := none, lastSecond := some n } } })
    ∧ (∀ d, (∀ c ∈ s.dev.kt.code, nowNs s.dev < c.2 + 100000000 ∨ c.2 + 900000000 < nowNs s.dev) →
      d = { s.dev with kt := { s.dev.kt with lastPps := some (nowNs s.dev), code := none } } →
      exec .ppsIn s =
        .next { s with
          dev := if s.dev.kt.refLocked then lockRef ((nowNs s.dev + 500000000) / 1000000000) d else d })
    ∧ (∀ bs, bs.length = 11 → leAt bs 0 1 = 0x5A → leAt bs 9 1 = 0 → leAt bs 10 1 = crc8 ((bs.drop 1).take 9) →
      exec (.tcodeFrame bs) s =
        .next { s with
          dev := { s.dev with kt := { s.dev.kt with code := some (leAt bs 1 8, nowNs s.dev) } } })
    ∧ (∀ bs, bs.length ≠ 11 ∨ leAt bs 0 1 ≠ 0x5A ∨ leAt bs 9 1 ≠ 0 ∨ leAt bs 10 1 ≠ crc8 ((bs.drop 1).take 9) →
      exec (.tcodeFrame bs) s = .next s)
    ∧ (∀ cause, s.dev.kt.refLocked = true →
      cause = 2 ∨ cause = 3 ∨ (cause = 1 ∧ ∀ t ∈ s.dev.kt.lastPps, t + 1500000000 < nowNs s.dev) →
      exec (.extrefLoss cause) s =
        .next { s with
          dev := raiseFields timeExtref unitKeystone none [(cause, 8)]
            { s.dev with
              kt := { s.dev.kt with
                refLocked := false, refLost := true, refLeft := 0
                state := if s.dev.kt.state = .extref then .master else s.dev.kt.state } } })
    ∧ exec .ppsOut s =
      .next { s with dev := { s.dev with pwr := { s.dev.pwr with ppsOut := nowNs s.dev / 1000000000 } } }

/-- With 60 V present and a good checking byte the management bus answers each command from the module's state; ALERT_CLR
with 1 releases ALERT_N while no sensor throttles, RESTART with 0xA5 pulses MRST_N, and both do nothing on any other value.
Otherwise no transaction is acknowledged (R557, R558). -/
def Obligations.ManagementBusReplies : Prop :=
  ∀ (s : State) (reply : List Byte → Dev),
    reply = (fun bs => { s.dev with pwr := { s.dev.pwr with smbus := some bs } }) →
    (s.dev.pwr.phase ≠ .unpowered →
      exec (.smState true) s = .next { s with dev := reply (leBytes 1 (moduleState s.dev)) }
      ∧ exec (.smIdent true) s =
        .next { s with
          dev := reply (leBytes 8 s.fuse.serial.toNat ++ leBytes 1 (bit01 (idHarvest s.fuse)) ++ leBytes 1 0xB0
            ++ leBytes 2 (if s.dev.tab.modidValid then s.dev.tab.modid else 0) ++ leBytes 1 (bit01 s.dev.tab.modidValid)) }
      ∧ exec (.smTemps true) s =
        .next { s with
          dev := reply ([s.dev.pwr.tCompute0, s.dev.pwr.tCompute1, s.dev.pwr.tIo, s.dev.pwr.tHbm, s.dev.pwr.tStage,
            s.dev.pwr.tCoolant].flatMap (fun t => leBytes 2 (toTwos 16 t))) }
      ∧ exec (.smPower true) s = .next { s with dev := reply (leBytes 2 s.dev.pwr.watts) }
      ∧ exec (.smVin true) s = .next { s with dev := reply (leBytes 2 s.dev.pwr.vin) }
      ∧ exec (.smThermal true) s =
        .next { s with
          dev := reply (leBytes 1 (packFields [(bit01 (s.dev.pwr.throttling != 0), 1),
            (bit01 (s.dev.pwr.phase == .tripped), 1), (s.dev.pwr.tripCause, 3)])) }
      ∧ exec (.smAlertClr true 1) s =
        .next { s with
          dev := { reply [] with pwr := { (reply []).pwr with alert := s.dev.pwr.throttling != 0 } } }
      ∧ (∀ v, v ≠ 1 → exec (.smAlertClr true v) s = .next { s with dev := reply [] })
      ∧ exec (.smRestart true 0xA5) s = .next { s with dev := pulse (reply []) }
      ∧ ∀ v, v ≠ 0xA5 → exec (.smRestart true v) s = .next { s with dev := reply [] })
    ∧ ∀ i ok v, (i ∈ [Instr.smState ok, .smIdent ok, .smTemps ok, .smPower ok, .smVin ok, .smThermal ok,
          .smAlertClr ok v, .smRestart ok v]) →
        ok = false ∨ s.dev.pwr.phase = .unpowered →
        exec i s = .next { s with dev := { s.dev with pwr := { s.dev.pwr with smbus := none } } }

/-! ### SPDM (R464 to R467) -/

/-- With the host link up the responder answers in the order of SPDM 1.2 (log entry 14): GET_VERSION starts a negotiation,
each later request needs those before it and is unexpected without them, digests, certificates, challenges and measurements are answered from the chains
and the measured state, SET_CERTIFICATE writes a slot of 1 to 7, large messages go in chunks, and any other request is
UnsupportedRequest. -/
def Obligations.SpdmAnswers : Prop :=
  ∀ (s : State), s.dev.hostp.link = true →
    exec .getVersion s = .next { s with dev := spdmSay (leBytes 2 0x1200) { s.dev with spdm := { version := true } } }
    ∧ (s.dev.spdm.version = true →
      exec .getCapabilities s =
        .next { s with dev := spdmSay [] { s.dev with spdm := { s.dev.spdm with caps := true } } }
      ∧ (s.dev.spdm.caps = true → ∀ a b c, exec (.negotiateAlgorithms a b c) s =
        .next { s with
          dev := spdmSay (leBytes 1 (packFields [(bit01 a, 1), (bit01 b, 1), (bit01 c, 1)]))
            { s.dev with spdm := { s.dev.spdm with algos := a && b && c } } }))
    ∧ (s.dev.spdm.version = false →
      exec .getCapabilities s = .next { s with dev := spdmError spdmUnexpected s.dev })
    ∧ (∀ a b c, s.dev.spdm.version = false ∨ s.dev.spdm.caps = false →
      exec (.negotiateAlgorithms a b c) s = .next { s with dev := spdmError spdmUnexpected s.dev })
    ∧ (∀ i, spdmReady s.dev = false →
      i = .getDigests ∨ (∃ a b c, i = .getCertificate a b c) ∨ (∃ a n, i = .challenge a n)
        ∨ (∃ a b n, i = .getMeasurements a b n) ∨ (∃ a x, i = .setCertificate a x)
        ∨ (∃ a b l x, i = .chunkSend a b l x) ∨ (∃ a b, i = .chunkGet a b) →
      exec i s = .next { s with dev := spdmError spdmUnexpected s.dev })
    ∧ (spdmReady s.dev = true →
      exec .getDigests s =
        .next { s with
          dev := spdmSay (leBytes 1 (bitMap ((List.range 8).filter (fun i => certChain s.dev i != [])))
            ++ ((List.range 8).filter (fun i => certChain s.dev i != [])).flatMap (fun i => sm3Bytes (certChain s.dev i)))
            s.dev }
      ∧ (∀ slot, slot < 8 → certChain s.dev slot ≠ [] →
        (∀ offset length, offset < (certChain s.dev slot).length →
          exec (.getCertificate slot offset length) s =
            .next { s with dev := spdmSay (((certChain s.dev slot).drop offset).take length) s.dev })
        ∧ (∀ nonce sig, sig = spdmSign s.fuse (leBytes 32 nonce.toNat ++ sm3Bytes (certChain s.dev slot)) s.dev →
          exec (.challenge slot nonce) s =
            .next { s with dev := spdmSay (sm3Bytes (certChain s.dev slot) ++ sig.1) sig.2 }))
      ∧ (∀ index sign nonce is bs sig, index ≤ 6 ∨ index = 255 →
        is = (if index = 255 then [1, 2, 3, 4, 5, 6] else if index = 0 then [] else [index]) →
        bs = leBytes 1 (if index = 0 then 6 else is.length)
          ++ is.flatMap (fun i => leBytes 1 i ++ measurement s.fuse s.dev i) →
        sig = spdmSign s.fuse (leBytes 32 nonce.toNat ++ bs) s.dev →
        exec (.getMeasurements index sign nonce) s =
          .next { s with dev := if sign then spdmSay (bs ++ sig.1) sig.2 else spdmSay bs s.dev })
      ∧ (∀ slot chain, 1 ≤ slot → slot ≤ 7 →
        exec (.setCertificate slot chain) s =
          .next { s with
            dev := spdmSay []
              { s.dev with flash := { s.dev.flash with certs := mapPut [] slot chain s.dev.flash.certs } } })
      ∧ (∀ handle seqNo bytes, seqNo = 0 ∨ (s.dev.spdm.chunkHandle = handle ∧ s.dev.spdm.chunkNext = seqNo) →
        exec (.chunkSend handle seqNo false bytes) s =
          .next { s with
            dev := spdmSay [] { s.dev with spdm := { s.dev.spdm with
              chunkHandle := handle, chunkNext := seqNo + 1
              chunkIn := (if seqNo = 0 then [] else s.dev.spdm.chunkIn) ++ bytes } } })
      ∧ (∀ handle seqNo bytes all d, seqNo = 0 ∨ (s.dev.spdm.chunkHandle = handle ∧ s.dev.spdm.chunkNext = seqNo) →
        all = (if seqNo = 0 then [] else s.dev.spdm.chunkIn) ++ bytes →
        d = { s.dev with spdm := { s.dev.spdm with chunkHandle := handle, chunkNext := 0, chunkIn := [] } } →
        exec (.chunkSend handle seqNo true bytes) s =
          .next { s with
            dev := if leAt all 1 1 = 0xEE then setChain (leAt all 2 1 % 16) (all.drop 4) d else spdmError 7 d })
      ∧ (s.dev.spdm.chunkOut ≠ [] →
        exec (.chunkGet s.dev.spdm.chunkHandle s.dev.spdm.chunkNext) s =
          .next { s with
            dev := { s.dev with
              spdm := { s.dev.spdm with
                error := false, errorCode := 0, reply := s.dev.spdm.chunkOut.take spdmPiece
                chunkNext := s.dev.spdm.chunkNext + 1, chunkOut := s.dev.spdm.chunkOut.drop spdmPiece } } }))
    ∧ ∀ code, exec (.unsupportedRequest code) s =
      .next { s with
        dev := { s.dev with
          spdm := { s.dev.spdm with error := true, errorCode := 7, reply := leBytes 1 code } } }

/-! ### The pier mailbox (R251 to R255, R459 to R463, R468 to R473, R494, R504 to R506, R524, R537 to R539) -/

/-- The code of each mailbox command, and the bytes that a margin sweep measured. -/
def mailboxRow : Instr → Option (Nat × List Byte)
  | .imgBegin => some (0x01, [])
  | .imgData => some (0x02, [])
  | .imgCommit => some (0x03, [])
  | .moduleReset => some (0x04, [])
  | .ownerEnrol => some (0x05, [])
  | .rollbackAdvance => some (0x06, [])
  | .dbgNonce => some (0x07, [])
  | .dbgUnlock => some (0x08, [])
  | .quiesce => some (0x09, [])
  | .scanNext => some (0x0A, [])
  | .scanCore => some (0x0B, [])
  | .scanStatus => some (0x0C, [])
  | .hangTake => some (0x0D, [])
  | .hangRead => some (0x0E, [])
  | .hangRelease => some (0x0F, [])
  | .traceRead => some (0x10, [])
  | .mapoutClear => some (0x11, [])
  | .hbmTest => some (0x12, [])
  | .margin sweep => some (0x13, sweep)
  | _ => none

/-- A mailbox command that the pier takes acts as it is written: what it does to the module and the fuses, with its
result and the length of its output held until the command ends. The clauses give the work of each command that is
carried out. -/
def Obligations.MailboxCommandsRun : Prop :=
  ∀ (s : State) (d : Dev), d = { s.dev with pier := { s.dev.pier with done := false, overrun := false } } →
    mboxOpen s.dev = true → s.dev.pier.busy = none →
    (∀ i code sweep a, mailboxRow i = some (code, sweep) → a = mboxRun code sweep s.fuse d →
      (s.dev.pwr.phase = .configHold → mboxInHold code = true) →
      exec i s =
        .next { s with
          fuse := mboxFuse code s.fuse s.dev
          dev := match a.1 with
            | some (result, len) => { a.2 with pier := { a.2.pier with busy := some (code, result, len) } }
            | none => a.2 })
    ∧ (∀ h kind, h = mboxIn d 128 → kind = imgKind h → kind = 1 ∨ kind = 2 → d.pier.img = none →
      imgForm kind h = true → imgSig s.fuse d.flash.ownerKey kind h = true →
      (kind = 2 → ownerKeyOk s.fuse d.flash.ownerKey = true) → rbCounter s.fuse kind ≤ imgSvn h →
      mboxRun 0x01 [] s.fuse d = answer 0 { d with
        flash := setSlot kind { header := h } d.flash, pier := { d.pier with img := some (kind, h, 0) } })
    ∧ (∀ kind h, d.pier.img = some (kind, h, d.pier.arg0) → d.pier.arg1 ≤ 65536 → d.pier.arg0 + d.pier.arg1 ≤ imgLength h →
      mboxRun 0x02 [] s.fuse d = answer 0 { d with
        flash := setSlot kind { slotOf d.flash kind with
          body := (slotOf d.flash kind).body ++ mboxIn d d.pier.arg1 } d.flash
        pier := { d.pier with img := some (kind, h, d.pier.arg0 + d.pier.arg1) } })
    ∧ (∀ kind h n, d.pier.img = some (kind, h, n) →
      imgSig s.fuse d.flash.ownerKey kind (slotOf d.flash kind).header = true →
      imgDigest h (slotOf d.flash kind).body = true →
      mboxRun 0x03 [] s.fuse d = answer 0 { d with pier := { d.pier with img := none } })
    ∧ mboxRun 0x04 [] s.fuse d = (none, moduleReset false d)
    ∧ (s.fuse.ownerDigest = none →
      mboxRun 0x05 [] s.fuse d = answer 0 { d with flash := { d.flash with ownerKey := mboxIn d 64 } }
      ∧ mboxFuse 0x05 s.fuse s.dev = { s.fuse with ownerDigest := some (Config.sm3 (mboxIn s.dev 64)) })
    ∧ (∀ kind old new, d.pier.arg0 = kind →
      (kind = 1 ∧ old = s.fuse.rbFirmware ∧ new = imgSvn d.run.fwHeader)
        ∨ (kind = 2 ∧ old = s.fuse.rbConfig ∧ new = imgSvn d.run.optHeader) →
      (new ≤ old → mboxRun 0x06 [] s.fuse d = answer 0 d ∧ mboxFuse 0x06 s.fuse s.dev = s.fuse)
      ∧ (old < new →
        mboxRun 0x06 [] s.fuse d =
          answer 0 (raiseFields rollbackCls unitPier none [(kind, 8), (old, 8), (new, 8)] d)
        ∧ mboxFuse 0x06 s.fuse s.dev =
          (if kind = 1 then { s.fuse with rbFirmware := new } else { s.fuse with rbConfig := new })))
    ∧ (∀ e n, (n, e) = drawNat d →
      mboxRun 0x07 [] s.fuse d = answerWith (leBytes 16 (BitVec.ofNat 128 n).toNat)
        { e with pier := { e.pier with nonce := some (BitVec.ofNat 128 n) } })
    ∧ (tokenOk s.fuse d (mboxIn d 96) = true → ∃ e, mboxRun 0x08 [] s.fuse d = answer 0 e
      ∧ e.pier.debug = bitsOf (leAt (mboxIn d 96) 0x18 1) 1 0
      ∧ (2 ≤ e.pier.debug → e.hbm = [] ∧ e.bench = [] ∧ e.joist = [] ∧ e.deck.lines = []))
    ∧ (ctxExists d = false → ∃ e, mboxRun 0x09 [] s.fuse d = answer 0 e ∧ e.pwr.phase = .quiesced
      ∧ e.pier.removeReady = true ∧ e.hostp.link = false)
    ∧ (∀ c, d.pier.scan = none → nextScan s.fuse d = some c → ∀ e, e = saveSection (fun s => { s with scanPtr := c }) d →
      mboxRun 0x0A [] s.fuse d =
        answerWith (leBytes 8 c) { e with pier := { e.pier with scan := some (c, true) } })
    ∧ (d.pier.scan = none → scannable s.fuse d d.pier.arg0 = true →
      mboxRun 0x0B [] s.fuse d = answer 0 { d with pier := { d.pier with scan := some (d.pier.arg0, true) } })
    ∧ (∀ t, s.fuse.harvest.getLsbD d.pier.arg0 = true → t = mapGet 0 d.pier.scanTimes d.pier.arg0 →
      mboxRun 0x0C [] s.fuse d = answerWith (leBytes 8 (t / 65536) ++ leBytes 8 (t % 65536)) d)
    ∧ (hangFree d = true → mboxRun 0x0D [] s.fuse d = answer 0 (hangTrigger 0 0 d))
    ∧ (∀ h, d.pier.hang = some h → d.pier.arg1 ≤ 65536 →
      mboxRun 0x0E [] s.fuse d =
        answerWith (((hangBytes d.pier.hangMissed h).drop d.pier.arg0).take d.pier.arg1) d)
    ∧ mboxRun 0x0F [] s.fuse d = answer 0 { d with pier := { d.pier with hang := none, hangMissed := 0 } }
    ∧ (d.pier.debug ≠ 0 → s.fuse.harvest.getLsbD d.pier.arg0 = true →
      mboxRun 0x10 [] s.fuse d = answerWith (leBytes 8 0
        ++ ((((coreAt d d.pier.arg0).trace.reverse).drop (d.pier.arg1 / 64)).take 1023).flatMap traceBytes) d)
    ∧ (d.hbmc.overflow.getLsbD d.pier.arg0 = false → d.run.sec.mapout.getLsbD d.pier.arg0 = true →
      mboxRun 0x11 [] s.fuse d =
        answer 0 (saveSection (fun s => { s with cleared := s.cleared ||| BitVec.twoPow 128 d.pier.arg0 }) d))
    ∧ (d.pier.arg0 < 8 → ctxExists d = false → d.pwr.phase = .ready → bitOf d.pier.arg1 0 = true →
      mboxRun 0x12 [] s.fuse d = answer 0 { d with
        hbmc := { d.hbmc with testMode := d.hbmc.testMode ||| BitVec.twoPow 8 d.pier.arg0 } })
    ∧ (∀ sweep a lo hi pins n, a = d.pier.arg0 → lo = ofTwos 5 (bitsOf a 21 17) → hi = ofTwos 5 (bitsOf a 26 22) →
      marginPins (bitsOf a 4 3) (bitsOf a 15 5) = some pins → d.hbmc.testMode.getLsbD (bitsOf a 2 0) = true →
      -10 ≤ lo → lo ≤ hi → hi ≤ 10 → 65536 ≤ d.pier.arg1 → d.pier.arg1 ≤ 2 ^ 32 → n = pins * (hi - lo + 1).toNat →
      (∃ bs e, mboxRun 0x13 sweep s.fuse d = answerWith bs e ∧ bs.length = 2 * n
        ∧ ∀ k < n, marginPairOk (bs.getD (2 * k) 0) (bs.getD (2 * k + 1) 0) = true)
      ∧ (sweep.length = 2 * n → (∀ k < n, marginPairOk (sweep.getD (2 * k) 0) (sweep.getD (2 * k + 1) 0) = true) →
        mboxRun 0x13 sweep s.fuse d = answerWith sweep d))

/-- A mailbox code that the table does not hold ends with BADCMD, one that config-hold does not admit is refused, a
command written while another runs sets OVERRUN and changes nothing else, a command whose scan or hang record is under way
does not end yet, and one that ends gives its result and length with ATTN.MAILBOX set (R537 to R539). -/
def Obligations.MailboxEnds : Prop :=
  ∀ (s : State), mboxOpen s.dev = true →
    (∀ code, s.dev.pier.busy = none → mboxKnown code = false → s.dev.pwr.phase ≠ .configHold →
      exec (.mboxBadcmd code) s =
        .next { s with
          dev := { s.dev with pier := { s.dev.pier with done := false, overrun := false, busy := some (code, 3, 0) } } })
    ∧ (∀ code, s.dev.pier.busy = none → mboxInHold code = false → s.dev.pwr.phase = .configHold →
      exec (.mboxBadcmd code) s =
        .next { s with
          dev := { s.dev with pier := { s.dev.pier with done := false, overrun := false, busy := some (code, 2, 0) } } })
    ∧ (∀ code, s.dev.pier.busy ≠ none →
      exec (.overrun code) s = .next { s with dev := { s.dev with pier := { s.dev.pier with overrun := true } } })
    ∧ (∀ code result len, s.dev.pier.busy = some (code, result, len) →
      ((code = 0x0A ∨ code = 0x0B) ∧ ∃ core, s.dev.pier.scan = some (core, true))
        ∨ (code = 0x0D ∧ result = mboxOk ∧ ∃ h, s.dev.pier.hangBusy = some h ∧ h.cause = 0) →
      exec .mboxCommandEnd s = .next s)
    ∧ (∀ code result len, s.dev.pier.busy = some (code, result, len) → s.dev.pier.scan = none →
      s.dev.pier.hangBusy = none →
      exec .mboxCommandEnd s =
        .next { s with
          dev := attnSet 11 { s.dev with
            pier := { s.dev.pier with busy := none, done := true, result := result, length := len } } })

/-! ### Resets, scans and containment (R455, R462, R488 to R504) -/

/-- A write of RST that names a unit of its domain starts the reset; one that ends raises RESET_DONE and lets waiting
contexts take the cores; one that misses its bound escalates; a rail cycle follows a module reset that missed its bound;
an access without an answer poisons what it should fill, a Dovetail engine sees a bus error, and its silent unit is
contained; and a pier that restarts ends its command with MBOX_BUSY. -/
def Obligations.ResetsAct : Prop :=
  ∀ (s : State),
    (regsOpen s.dev = true →
      (∀ i domain index, (i = .rstEngine index ∧ domain = 1) ∨ (i = .rstCore index ∧ domain = 2)
          ∨ (i = .rstCluster index ∧ domain = 3) →
        (rstIndexOk s.fuse domain index.toNat = true →
          exec i s = .next { s with dev := startReset domain index.toNat true s.dev })
        ∧ (rstIndexOk s.fuse domain index.toNat = false → exec i s = .next s))
      ∧ exec .rstModule s = .next { s with dev := moduleReset true s.dev }
      ∧ exec .rstHoldNext s =
        .next { s with
          dev := moduleReset true { s.dev with pier := { s.dev.pier with holdNext := true } } })
    ∧ (∀ (unit : BitVec 16) j, unitKnown unit.toNat = true →
      s.dev.resets.find? (fun j => j.unit.toNat == unit.toNat && j.domain != 5 && j.domain != 7) = some j →
      (j.domain < 4 ∨ s.dev.pwr.phase = .ready →
        exec (.resetDone unit) s =
          .next { s with
            dev := resideAll (raise resetDoneCls unit.toNat none 0 0
              { s.dev with resets := s.dev.resets.filter (fun x => x != j) }) })
      ∧ (j.since + rstBound j.domain ≤ nowNs s.dev →
        (4 ≤ j.domain → s.dev.pwr.phase ≠ .ready ∧ s.dev.pwr.mrstLow = false) → ∀ d,
        d = { s.dev with resets := s.dev.resets.filter (fun x => x != j) } →
        exec (.resetEscalate unit) s =
          .next { s with
            dev := escalate j (raiseRec
              { cls := resetEscalateCls, kind := 3, unit := unit.toNat, trig := hangFree d } d) }))
    ∧ ((∃ j ∈ s.dev.resets, j.domain = 5) → exec .railCycle s = .next { s with dev := cycleRails s.dev })
    ∧ (∀ (unit silent : BitVec 16) ctx (bench : Option (Nat × Nat)) (line chan : Option Nat) write d d2 d3,
      unitKnown unit.toNat = true → unitKnown silent.toNat = true → (∀ b ∈ bench, b.1 < 160 ∧ b.2 < benchSize) →
      (∀ m ∈ chan, m < 640) → s.dev.pwr.phase = .ready →
      d = (if write then s.dev else bench.elim s.dev (fun b => benchPoison b.1 (lineOf b.2) 64 s.dev)) →
      d2 = (if write then d else line.elim d (fun l => if deckHolds d false (lineOf l) then d
        else fillPoison false (lineOf l) (deckTake false (lineOf l) false d))) →
      d3 = chan.elim d2 (fun m => (chanOwner d2 m).elim d2 (fun x => (chanAt d2 m).run.elim d2 (fun r =>
        if r.halted || r.retryAt.isSome then d2 else dvBusError m x d2))) →
      exec (.accessTimeout unit silent ctx bench line chan write) s =
        .next { s with dev := contain silent.toNat (raise engineFault silent.toNat ctx 0 0 d3) })
    ∧ (pierRuns s.dev = true → ∀ d, d = raise pierReset unitPier none 0 0 (mboxFinish { s.dev with
        pier := { s.dev.pier with
          busy := s.dev.pier.busy.map (fun b => (b.1, 1, 0)), hangBusy := none, scan := none } }) →
      exec .pierRestart s =
        .next { s with dev := if s.dev.resets.any (fun j => j.domain == 7) then moduleReset false d else d })

/-- A scan of a suspect core begins while no other runs, and ends with its core's verdict, not while the core holds a started
launch or a glue-up a line of its save area; and a hang record that is being taken is stored with HANG_READY, and a module
reset that waited for it starts (R491 to R496, R504). -/
def Obligations.ScansAndHangRecords : Prop :=
  ∀ (s : State),
    (∀ core, core < 160 → s.dev.pier.scan = none →
      ((coreAt s.dev core).out = true ∨ (s.dev.run.sec.offline.getLsbD core = true ∧ fabricOn s.dev = true)) →
      exec (.suspectCoreScan core) s =
        .next { s with dev := { s.dev with pier := { s.dev.pier with scan := some (core, false) } } })
    ∧ (∀ core host pass pattern d, s.dev.pier.scan = some (core, host) → coreHoldsLaunch s.dev core = false →
      scanHeld s.dev core = false →
      d = (if pass then scanPassed core s.dev else scanFailed core pattern s.dev) →
      exec (.scanDone pass pattern) s =
        .next { s with
          dev := resideAll { d with
            pier := { d.pier with
              scan := none
              busy := if host && !pass then d.pier.busy.map (fun b => (b.1, 4, b.2.2)) else d.pier.busy } } })
    ∧ (∀ core host pass pattern, s.dev.pier.scan = some (core, host) →
      coreHoldsLaunch s.dev core = true ∨ scanHeld s.dev core = true → exec (.scanDone pass pattern) s = .next s)
    ∧ (∀ h r d, s.dev.pier.hangBusy = some h →
      r = (hangUnits s.fuse).foldl (fun r u => addSection r.1 r.2 u) (h, s.dev) →
      d = raise hangReady unitPier none 0 0 { s.dev with
        pier := { s.dev.pier with hang := some { r.1 with stop := nowNs s.dev }, hangBusy := none } } →
      r.2 = s.dev ∧ r.1.sections.length = h.sections.length + (hangUnits s.fuse).length
      ∧ exec .hangRecordDone s =
        .next { s with dev := if s.dev.resets.any (fun j => j.domain == 7) then moduleReset false d else d })

/-! ### Registers and records (R12, R13, R242, R425, R446, R448, R477, R484, R485, R513, R515, R525 to R536) -/

/-- Writes of BAR0 with the host link up: eight bytes at an aligned offset reach their register, and the mailbox command
register runs its command; a fence request, a clear of attention bits, the admin ring's enable, the error ring's and
capture's enables act as their rows say; every read carries the attention word above the register's value, identity and
harvest map among them, which is zero in config-hold where the block does not answer; a read of KT.READ_LO latches the other
half; and a patrol scrub reads its line: what its burst shows is corrected, written back or poison, unless a write raced it.
-/
def Obligations.RegistersAct : Prop :=
  ∀ (s : State), s.dev.hostp.link = true →
    (∀ off (value : BitVec 64) v, off % 8 = 0 → v = value.toNat % 2 ^ 48 →
      (off ≠ 0x7020 → exec (.registerWrite off value 8) s = .next { s with dev := regDev off v s.fuse s.dev })
      ∧ (off = 0x7020 → exec (.registerWrite off value 8) s = .next (mboxWrite (v % 256) [] s)))
    ∧ (∀ off value size, off % 8 ≠ 0 ∨ size ≠ 8 → exec (.registerWrite off value size) s = .next s)
    ∧ (∀ v : BitVec 48,
      exec (.attnClear v) s =
        .next { s with
          dev := { s.dev with attn := { s.dev.attn with raw := s.dev.attn.raw &&& ~~~BitVec.ofNat 12 v.toNat } } })
    ∧ (s.dev.pwr.phase ≠ .configHold →
      exec .ktReadLo s =
        .next { s with
          dev := { s.dev with
            hostp := { s.dev.hostp with
              regReply := BitVec.ofNat 64 (attnWord s.dev.attn * 2 ^ 48 + nowNs s.dev % 2 ^ 48) }
            kt := { s.dev.kt with
              readHiNs := BitVec.ofNat 16 (nowNs s.dev / 2 ^ 48), readHiFrac := BitVec.ofNat 16 s.dev.kt.now } } }
      ∧ (∀ v : BitVec 48, bitOf v.toNat 7 = true →
        exec (.hbmFenceGo v) s = .next { s with dev := fenceChannel (v.toNat % 128) fenceHost s.dev })
      ∧ (∀ v : BitVec 48, bitOf v.toNat 0 = true → s.dev.hostp.adminEn = false →
        exec (.adminEn v) s =
          .next { s with
            dev := installRing 4096 { s.dev with hostp := { s.dev.hostp with adminEn := true } } })
      ∧ (∀ v : BitVec 48, bitOf v.toNat 7 = false → exec (.hbmFenceGo v) s = .next s)
      ∧ (∀ v : BitVec 48, bitOf v.toNat 0 = s.dev.hostp.adminEn → exec (.adminEn v) s = .next s)
      ∧ (∀ v : BitVec 48, ∀ d, bitOf v.toNat 0 = false → s.dev.hostp.adminEn = true →
        d = { s.dev with hostp := { s.dev.hostp with adminEn := false } } →
        exec (.adminEn v) s =
          .next { s with
            dev := if (ringAt d adminRing).comps = [] ∧ (ringAt d adminRing).taken = [] ∧ ringBusy d adminRing = false
              then dropRing adminRing d else modRing adminRing (fun r => { r with drop := true }) d })
      ∧ (∀ v : BitVec 48, s.dev.kz.en = true → bitOf v.toNat 0 = true → exec (.kzEn v) s = .next s)
      ∧ (∀ v : BitVec 48, ∀ d, s.dev.kz.en = true → bitOf v.toNat 0 = false →
        d = kzRecord 8 0 (bitmapDigest s.dev.kz.bitmap) 0 [] s.dev →
        exec (.kzEn v) s = .next { s with dev := { d with kz := { d.kz with en := false } } })
      ∧ (∀ v : BitVec 48, ∀ d, d = { s.dev with
          err := { s.dev.err with
            en := bitOf v.toNat 0
            log2 := if s.dev.err.en then s.dev.err.log2 else clampTo 6 20 (bitsOf v.toNat 12 8)
            coalMs := clampTo 1 1000 (bitsOf v.toNat 25 16)
            everOn := s.dev.err.everOn || bitOf v.toNat 0 } } →
        exec (.errEn v) s =
          .next { s with
            dev := if bitOf v.toNat 0 && !s.dev.err.en && !s.dev.err.everOn then bootFlush d else d })
      ∧ (∀ v : BitVec 48, ∀ d, s.dev.kz.en = false → bitOf v.toNat 0 = true → d = { s.dev with
          kz := { s.dev.kz with
            en := true, admin := bitOf v.toNat 1, pkt := bitOf v.toNat 2, hostMem := bitOf v.toNat 3
            log2 := clampTo 10 26 (bitsOf v.toNat 12 8)
            bitmap := readMem s.dev true s.dev.kz.select 512 } } →
        exec (.kzEn v) s = .next { s with dev := kzRecord 8 0 (bitmapDigest d.kz.bitmap) 1 [] d }))
    ∧ (∀ off, regRead s.fuse s.dev off =
      BitVec.ofNat 64 (attnWord s.dev.attn * 2 ^ 48 + regValue s.fuse s.dev off % 2 ^ 48))
    ∧ regValue s.fuse s.dev 0x00 =
      packFields [(0x0707, 16), (0xB0, 8), (bit01 (idHarvest s.fuse), 1), (0, 7), (0x07, 8), (0x01, 8)]
    ∧ (∀ i < 4, regValue s.fuse s.dev (0x28 + 8 * i) = s.fuse.harvest.toNat / 2 ^ (48 * i) % 2 ^ 48)
    ∧ (∀ off, 0x1000 ≤ off → off < 0x4000 ∨ (0x5000 ≤ off ∧ off < 0x7000) ∨ 0x7800 ≤ off →
      s.dev.pwr.phase = .configHold → regValue s.fuse s.dev off = 0)
    ∧ (∀ line burst raced l, l = lineOf line →
      (hbmLost s.dev l = true ∨ memPoisoned s.dev false l = true → exec (.patrolScrub line burst raced) s = .next s)
      ∧ (hbmLost s.dev l = false → memPoisoned s.dev false l = false →
        (∀ d, hbDecode burst = none → d = hbmUncorrectable l (hbSymbols burst) s.dev →
          exec (.patrolScrub line burst raced) s =
            .next { s with dev := if raced then d else markMem false l true d })
        ∧ (∀ left, hbDecode burst = some (left, none) → exec (.patrolScrub line burst raced) s = .next s)
        ∧ (∀ left pin, hbDecode burst = some (left, some pin) →
          exec (.patrolScrub line burst raced) s =
            .next { s with
              dev := hbmCorrected l pin (if raced then s.dev
                else scrubStore l (hbApply left (hbmValue l s.dev)) s.dev) })))

/-- The oldest raised record goes to the error ring, folds, or waits in the boot log until the ring is first enabled;
runs whose time is over close; lost records are summarised once two slots are free; and a capture loss takes the first
free slot (R448, R477, R484, R485, R515). -/
def Obligations.RecordsReachTheirRing : Prop :=
  ∀ (s : State),
    (∀ r rs d e, d = (if s.dev.hostp.link then errHeld s.dev else s.dev) → d.err.raised = r :: rs →
      e = { d with err := { d.err with raised := rs } } →
      exec .errorRecord s =
        .next { s with
          dev := if d.err.en then errArrive r e else if d.err.everOn then errLose r e else bootTake r e })
    ∧ exec .coalesceClose s =
      .next { s with
        dev := (s.dev.err.runs.filter (runOver s.dev.err.coalMs (nowNs s.dev))).foldl (fun d x => runClosed x d)
          { s.dev with
            err := { s.dev.err with
              runs := s.dev.err.runs.filter (fun x => !runOver s.dev.err.coalMs (nowNs s.dev) x) } } }
    ∧ (s.dev.err.en = true → s.dev.hostp.link = true → s.dev.err.lostNew ≠ [] → 2 ≤ errFree s.dev → ∀ d,
      d = errPut { cls := lostSummaryCls, kind := kindOf lostSummaryCls, kt := nowNs s.dev % 2 ^ 64
                   detail := packFields ((s.dev.err.lostNew.take 6).flatMap
                     (fun x => [(x.1, 16), (min x.2 65535, 16)])) } s.dev →
      exec .lostSummary s =
        .next { s with dev := { d with err := { d.err with lostNew := d.err.lostNew.drop 6 } } })
    ∧ (s.dev.kz.en = true → s.dev.kz.lostNew ≠ 0 → kzRoom s.dev = true → ∀ d,
      d = kzPut 9 0 s.dev.kz.lostNew 0 [] s.dev →
      exec .kzLost s = .next { s with dev := { d with kz := { d.kz with lostNew := 0 } } })

/-! ### What holds of every command -/

/-- The queue commands: the command and the queues that accept it (R174). -/
def queueRow : Instr → Option (QCmd × List Nat)
  | .load q _ | .gather q _ | .spanSurvey q _ _ _ | .jrawLoad q _ _ _ => some (q, [0])
  | .matmul q _ | .spanClose q _ _ => some (q, [1])
  | .vadd q _ | .vsub q _ | .vmul q _ | .vfma q _ | .vmin q _ | .vmax q _ | .vminnum q _ | .vmaxnum q _ | .vcmp q _
  | .vsel q _ | .vabs q _ | .vneg q _ | .vcopysign q _ | .vcvt q _ | .vrcp q _ | .vrsqrt q _ | .vexp2 q _ | .vlog2 q _
  | .vdiv q _ | .vsqrt q _ | .viadd q _ | .visub q _ | .viand q _ | .vior q _ | .vixor q _ | .vishl q _ | .vishr q _
  | .vicmp q _ | .vspan q _ | .vspanOut q _ | .vredmax q _ | .vredmin q _ | .vfunc q _ => some (q, [2])
  | .store q _ | .scatter q _ | .epilogue q _ | .jrawStore q _ _ _ | .spanOpen q _ | .spanAdd q _ _ _ _
  | .spanRelease q _ | .zstep q _ | .zfill q _ | .gaugeReset q _ | .plane q _ | .atomic q _ | .glueBegin q _
  | .glueCommit q _ | .dvPost q _ _ _ => some (q, [3])
  | _ => none

/-- What follows the issue or the failure of a command for the open glue-up of its core: the actions of an ATOMIC are
sent to their decks, and a GLUE_COMMIT lets the glue-up go on (R276, R280). -/
def glueAfter : Instr → Dev → Dev → Dev
  | .atomic q _, d => sendActs q.core (actCount d q.core)
  | .glueCommit q _, _ => settleGlue (4 * q.core + 3)
  | _, _ => id

/-- A queue command that reaches a queue which does not accept it faults its context with CMD_QUEUE (R174); one that
names a core that no module has is the model's one fault. -/
def Obligations.WrongQueueFaults : Prop :=
  ∀ (i : Instr) (s : State) q accept, queueRow i = some (q, accept) →
    (q.core < 160 → queueNo q.queue ∉ accept → ∀ ctx d, issuer s.dev q.core (queueNo q.queue) = some ctx →
      fetchLines (startJob q ctx s.dev) s.dev = .ok d →
      exec i s = .next { s with dev := glueAfter i s.dev (failCmd (startJob q ctx d) { cls := cmdQueue } d) })
    ∧ (160 ≤ q.core → exec i s = .fault .unknownUnit)

/-- An empty command, one with N = 0, has no effect of its own: it issues, and completes like any other (R111, R186). -/
def Obligations.EmptyCommandsIssue : Prop :=
  ∀ (i : Instr) (q : QCmd) (s : State) (r : Ready),
    ((started q [2] true false [] [] s.dev = some r ∧ ∃ f : VCmd, f.n = 0 ∧
        (i = .vcmp q f ∨ (i = .vicmp q f ∧ f.prec64 = false)
          ∨ (i = .vspan q f ∧ f.rslot ≤ 1023 ∧ 1 ≤ f.r ∧ f.r ≤ 4096)
          ∨ (f.ztid < 2 ^ 24 ∧ 1 ≤ f.r ∧ f.r ≤ 4096 ∧ (i = .vredmax q f ∨ i = .vredmin q f))))
      ∨ (started q [3] true false [] [] s.dev = some r ∧ ∃ f : ZfillF, f.n = 0 ∧ f.thresh ≤ 65535 ∧ f.ztid < 2 ^ 24
        ∧ i = .zfill q f)) →
    issuesNow r r.job = true → exec i s = .next { s with dev := issued r r.job }

/-- The module right after reset: no command waits, the fuses are legal, the 60 V input is absent, no memory lists a
byte, and the attention unit holds the values that R533 gives. That the model begins without input is its own choice (log entry 1). -/
def Obligations.ResetState : Prop :=
  State.reset.pending = [] ∧ State.reset.fuse.ok = true ∧ State.reset.dev.pwr.phase = .unpowered
    ∧ State.reset.dev.hbm = [] ∧ State.reset.dev.bench = [] ∧ State.reset.dev.joist = []
    ∧ State.reset.dev.ctxs = [] ∧ State.reset.dev.hostp.link = false ∧ State.reset.dev.attn.raw = 0x200
    ∧ State.reset.dev.attn.mask = 0xFFF

/-- With no command waiting a step is one nanosecond of keystone time, which changes keystone time alone and stands
still without 60 V (R339), evenly where no slew is under way (R343, R348, R352). That a nanosecond passes there is the model's choice (log entry 2). -/
def Obligations.IdleTicks : Prop :=
  ∀ (s : State), s.pending = [] →
    (s.dev.pwr.phase = .unpowered → step s = .next s)
    ∧ (∀ k, s.dev.pwr.phase ≠ .unpowered → k = rateSlew (refSlew s.dev.kt) →
      step s = .next { s with
        dev := { s.dev with
          kt := { k with
            now := ((k.now : Int) + 65536 + slewShare k).toNat % 2 ^ 80, slewAt := min 1000 (k.slewAt + 1) } } })
    ∧ (s.dev.pwr.phase ≠ .unpowered → s.dev.kt.slewAt = 1000 → s.dev.kt.refLeft = 0 →
      s.dev.kt.rate = 0 ∨ (s.dev.kt.state ≠ .holdover ∧ s.dev.kt.state ≠ .free) →
      step s = .next { s with
        dev := { s.dev with kt := { s.dev.kt with now := (s.dev.kt.now + 65536) % 2 ^ 80 } } })
    ∧ (∀ t, step s = .next t → { t with dev := { t.dev with kt := s.dev.kt } } = s)

/-- Whatever the step: legal fuses stay legal, the harvest map and the identity never change, rollback counters never
fall, and OWNER_DIGEST is blown at most once (R3, R459, R461). -/
def Obligations.FusesAdvance : Prop :=
  ∀ (s t : State), s.fuse.ok = true → step s = .next t → t.fuse.ok = true ∧ s.fuse.Later t.fuse

/-- A fault of a context stops that context and no other: its state is FAULTED with the class of its first fault, every
other context's record is as before, and neither power, keystone time, the fabric's tables nor the fuses' state section
change (R487). -/
def Obligations.FaultContained : Prop :=
  ∀ (c : Nat) (r : ErrRec) (d e : Dev), e = faultCtx c r d →
    (∀ x, x ≠ c → ctxAt e x = ctxAt d x)
    ∧ ((ctxAt d c).state ≠ .free → (ctxAt e c).state = .faulted)
    ∧ ((ctxAt d c).state ≠ .free → (ctxAt d c).state ≠ .faulted → (ctxAt d c).faultCode = 0 →
      (ctxAt e c).faultCode = r.cls ∧ (ctxAt e c).launches = [])
    ∧ e.pwr = d.pwr ∧ e.kt = d.kt ∧ e.tab = d.tab ∧ e.run = d.run

/-- Nothing that a command touches meets what a command in flight in another queue touches: no read of one under a write of
the other, no common write, no gauge slot of one under the other, and with the sentinel on no write under an unfinished read
(R148, R199, R204). -/
def apart (j : Job) (p : Nat × Flight) : Prop :=
  ∀ same atom, same = (p.1 / 4 == j.core) → atom = (j.atom && p.2.atom) →
    meetParts same atom j.allReads p.2.dsts = [] ∧ meetParts same atom j.dsts p.2.reads = []
      ∧ meetParts same atom j.dsts p.2.dsts = []
      ∧ meetParts same false j.dsts (gaugeRegions j.d (p.1 / 32) j.ctx p.2.gauge) = []
      ∧ meetParts same false p.2.dsts (gaugeRegions j.d j.unit j.ctx j.gauge) = []
      ∧ ((ctxAt j.d j.ctx).sentinel = true → p.1 / 4 = j.core → underRead j p.2 = none)

/-- What the start of a command changes is what memory errors that the command meets leave, which is nothing where it meets
none, and its fetch and flag reads: cached translations, the free values drawn for stale ones, open glue-ups that the reads
meet, and lines of the decks with what a replaced line leaves in memory, counts and records; no register, bench, row, flag,
queue or context. What its issue leaves beside its own work: its flight is the youngest of its queue, the queue has moved past
its lines, and flags that it consumed, the sentinel's shadow and the trace aside nothing else of the module changes, no memory,
no register and no other queue; stated where no command is complete at once and nothing in flight in another queue meets it. -/
def Obligations.FetchAndIssueFrame : Prop :=
  (∀ cmd accept engine glueOk more ops (d : Dev) (r : Ready),
    started cmd accept engine glueOk more ops d = some r →
    ∃ xc fc fr gl dk hb hp ho op hc er at_ kz, r.job.d = { meetUpsets cmd d with
      xcache := xc, fcache := fc, free := fr, glues := gl, deck := dk, hbm := hb, hbmPoison := hp, host := ho
      hostPoison := op, hbmc := hc, err := er, attn := at_, kz := kz })
  ∧ (∀ cmd (d : Dev), cmd.upsets = [] → meetUpsets cmd d = d)
  ∧ (∀ (r : Ready) (j : Job), (∀ f ∈ (queueAt j.d j.core j.q).inflight.head?, f.imm = false ∨ f.held = true) →
    ((queueAt j.d j.core j.q).inflight = [] → j.imm = false ∨ j.held = true ∨ r.inGlue = true ∨ j.glueMark = true) →
    (∀ p ∈ otherFlights j.d j.ctx j.core j.q, apart j p) →
    (∃ fl sh co qu, issued r j = { j.d with flags := fl, shadow := sh, cores := co, queues := qu })
    ∧ (∀ k, k ≠ 4 * j.core + j.q → mapGet {} (issued r j).queues k = mapGet {} j.d.queues k)
    ∧ (queueAt (issued r j) j.core j.q).inflight.length = (queueAt j.d j.core j.q).inflight.length + 1
    ∧ (queueAt (issued r j) j.core j.q).lastTag = j.cmd.tag
    ∧ (j.loop = none → (queueAt j.d j.core j.q).loops = [] →
      (queueAt (issued r j) j.core j.q).pc = (queueAt j.d j.core j.q).pc + 64 * j.cmd.lines)
    ∧ (j.cmd.trace = false → (issued r j).cores = j.d.cores)
    ∧ ((∀ w ∈ r.waits, w.2 = false) → (issued r j).flags = j.d.flags))

/-- The terms of a span record enter in any order: its count, its largest exponent and whether it must be redone depend
only on the multiset of terms, and where it need not be redone so do its word and its sticky bits, the word being the old
one and the floors of the running terms; and VSPAN's record k takes the elements with index k modulo R (R47, R48,
R124). -/
def Obligations.SpanOrderFree : Prop :=
  (∀ (r : Red) (s a b : SpanRec) (ts us : List (Bool × Val)), ts.Perm us → noExp ≤ s.eobs →
      (∀ t ∈ ts, noExp ≤ termExp t.2) →
      a = ts.foldl (fun s t => spanEnter r t.1 t.2 s) s → b = us.foldl (fun s t => spanEnter r t.1 t.2 s) s →
      a.redo = b.redo ∧ a.eobs = b.eobs ∧ a.count = b.count
      ∧ (a.redo = false → a = b
        ∧ a.i = s.i + ((ts.filter (·.1)).map (fun t => enterFloor s.anchor t.2)).sum))
  ∧ (∀ (r : Red) (ts : List (Bool × Val)) (recs : List SpanRec) (k : Nat) (h : k < recs.length),
      (spanEnterAll r ts recs)[k]? =
        some ((((List.range ts.length).zip ts).filter (fun p => p.1 % recs.length == k)).foldl
          (fun s p => spanEnter r p.2.1 p.2.2 s) recs[k]))

/-- The ranges of HBM by R236: where each begins, and its set of channels. -/
def hbmRanges (h : Hbm) : List (Nat × List Nat) :=
  if h.die then
    [(0, h.active.filter (fun c => decide (c < 64))),
     ((h.active.filter (fun c => decide (c < 64))).length * chanBytes, h.active.filter (fun c => decide (64 ≤ c)))]
  else [(0, h.active)]

/-- `hbm_map`: within each range, channel, pseudo-channel, offset and home deck of an address are R237's expressions of
its frame, its line and its frame row; for each row the slots cover every channel, and over all of HBM the map is
one-to-one; a stride of exactly c frames takes every channel; the home deck of a line is that of the map; and every line
of a frame has the same home deck. -/
def Obligations.HbmMapOneToOne : Prop :=
  ∀ (h : Hbm), h.active.Nodup →
    (∀ base act, (base, act) ∈ hbmRanges h →
      (∀ rel f q ch, rel < act.length * chanBytes → f = rel / 4096 → q = f / act.length →
        ch = act.getD ((f + q) % act.length) 0 →
        hbmMap h (base + rel) = (ch, rel / 64 % 64 % 2, q * 4096 + rel % 4096, 10 * (ch / 64) + (ch + q) % 10))
      ∧ (∀ q ch, q < 366210 → ch ∈ act →
        ∃ s < act.length, (hbmMap h (base + 4096 * (q * act.length + s))).1 = ch)
      ∧ (∀ rel ch, rel + 4096 * act.length * act.length ≤ act.length * chanBytes → ch ∈ act →
        ∃ n < act.length, (hbmMap h (base + rel + 4096 * act.length * n)).1 = ch))
    ∧ (∀ a b, a < hbmSpan h → b < hbmSpan h → (hbmMap h a).1 = (hbmMap h b).1 →
      (hbmMap h a).2.2.1 = (hbmMap h b).2.2.1 → a = b)
    ∧ (∀ a, homeDeck h false a = (hbmMap h a).2.2.2)
    ∧ (∀ a b, a / 4096 = b / 4096 → (hbmMap h a).2.2.2 = (hbmMap h b).2.2.2)

/-- The test vector of the Zhevud generator: the state after the first injection and after each round, the output, the
values of positions 32 to 39, and what they make of the worked conversion to V8e4. -/
def Obligations.ZhevudTestVector : Prop :=
  ∀ (k x : Quad), k = (0x00000003, 0x00000007, 0x00000002, 0x6A3B91E3) →
    x = (0x00000004, 0x00001100, 0x00000005, 0x00000000) →
    zhevudInject x k 0 = (0x00000007, 0x00001107, 0x00000007, 0x6A3B91E3)
    ∧ (List.range 8).map (fun n => (List.range (n + 1)).foldl (zhevudRound k) (zhevudInject x k 0)) =
      [(0x0000110E, 0x0EDE24B8, 0x701DAD4E, 0x701DAD47), (0x0EDE35CD, 0x36D7FF49, 0x0B5C3CB8, 0x3102FD8B),
       (0x45B63516, 0xC7849DBF, 0x812F0FDA, 0x75D2D322), (0x0D3AD2D7, 0xEA77773B, 0xBB2F8DBB, 0x3A007DE7),
       (0xF7B24A12, 0xEAE81D79, 0xD72A7494, 0x1BFAE6D9), (0x4CD5F96E, 0xEF5B0DF1, 0x0189A0AB, 0x2A5F2C15),
       (0x3C31075F, 0x713D555B, 0xBA36C904, 0xB8AD2859), (0xAD6E5CBD, 0xA4C5F6E2, 0x1CEF37A2, 0xCCF40083)]
    ∧ zhevud 0x0000000700000003 2 (5#64 ++ 0x11#24 ++ 4#40) = 0xCCF400831CEF37A2A4C5F6E2AD6E5CBD
    ∧ (List.range 8).map (fun i => zhevudValue 0x0000000700000003 2 5 0x11 (32 + i)) =
      [0x5CBD, 0xAD6E, 0xF6E2, 0xA4C5, 0x37A2, 0x1CEF, 0x0083, 0xCCF4]
    ∧ (convert 3 .sr false 0x5CBD false (decodeElem 7 0x3DCCCCCD)).bits = 0x1D
    ∧ (convert 3 .sr false 0x0083 false (decodeElem 7 0x3DCCCCCD)).bits = 0x1C

/-- A port is eligible as a parent when, and only when, its link is up, it has measured at least 64 marks since link-up or
since its last retrain, no mark has been missing for 3 µs, the root sequence that it carries has advanced within 10 µs,
and its hops are below 31: coming up and retraining clear the count of marks, a measured mark adds one to it, and each
mark keeps its time and, where it differs, that of the root sequence. -/
def Obligations.ParentEligible : Prop :=
  (∀ (d : Dev) (port : Nat),
    eligible d port = true ↔
      ((portAt d port).state = .localSt ∨ (portAt d port).state = .routed)
        ∧ 64 ≤ (portAt d port).marks
        ∧ nowNs d ≤ (portAt d port).lastMark + 3000
        ∧ nowNs d ≤ (portAt d port).rootSeqAt + 10000
        ∧ (portAt d port).offer.hops < 31)
  ∧ (∀ (d : Dev) (port cause : Nat) (half : Bool),
    (portAt (enterLocal port half d) port).marks = 0 ∧ (portAt (leaveLink port .retrain cause d) port).marks = 0)
  ∧ (∀ (p : Port) (b : List Byte) (rx now : Nat),
    (markPort b rx now p).lastMark = now
    ∧ (markPort b rx now p).rootSeqAt =
      (if p.seen = false ∨ (parseOffer b).rootSeq ≠ p.offer.rootSeq then now else p.rootSeqAt)
    ∧ (markPort b rx now p).offer = parseOffer b
    ∧ (markPort b rx now p).marks =
      (if (p.txStamps.find? (fun x => x.1 == leAt b 0x1A 2)).isSome then p.marks + 1 else p.marks))
end

