-- ==== Sys2Proof/Laws/Maps.lean ====
section
/-!
SUPPORT. Sparse maps and byte memories: reading after writing, and that every operation keeps the canonical form.
-/

namespace Sys2Proof.Machine

/-! ### Reading after writing -/

@[simp] theorem mapGet_nil {α : Type} (d : α) (k : Nat) : mapGet d [] k = d := rfl

/-- A write leaves every other key alone, in any list. -/
theorem mapGet_mapPut_ne {α : Type} [DecidableEq α] (d v : α) (k x : Nat) (m : SMap α) (h : x ≠ k) :
    mapGet d (mapPut d k v m) x = mapGet d m x := by
  induction m with
  | nil => by_cases hv : v = d <;> simp [mapPut, mapGet, hv, h.symm]
  | cons p m ih =>
    obtain ⟨a, w⟩ := p
    simp only [mapPut]
    split
    · split <;> simp [mapGet, h.symm]
    · split
      · next hk =>
        subst hk
        split <;> simp [mapGet, h.symm]
      · simp only [mapGet, ih]

/-- The value written is read, where it is listed. -/
theorem mapGet_mapPut_self {α : Type} [DecidableEq α] (d v : α) (k : Nat) (m : SMap α) (hv : v ≠ d) :
    mapGet d (mapPut d k v m) k = v := by
  induction m with
  | nil => simp [mapPut, mapGet, hv]
  | cons p m ih =>
    obtain ⟨a, w⟩ := p
    simp only [mapPut, if_neg hv]
    split
    · simp [mapGet]
    · split
      · simp [mapGet]
      · next hk => simp [mapGet, ih, Ne.symm hk]

/-- A key below all listed ones reads as the default. -/
theorem mapGet_of_mapOkFrom {α : Type} [DecidableEq α] (d : α) (k lo : Nat) (m : SMap α) (h : mapOkFrom d lo m = true)
    (hk : k < lo) : mapGet d m k = d := by
  induction m generalizing lo with
  | nil => rfl
  | cons p m ih =>
    obtain ⟨a, w⟩ := p
    simp only [mapOkFrom, Bool.and_eq_true, decide_eq_true_eq] at h
    simp only [mapGet]
    rw [if_neg (by omega)]
    exact ih (a + 1) h.2 (by omega)

theorem mapGet_mapPut_from {α : Type} [DecidableEq α] (d v : α) (k lo : Nat) (m : SMap α)
    (h : mapOkFrom d lo m = true) : mapGet d (mapPut d k v m) k = v := by
  induction m generalizing lo with
  | nil => by_cases hv : v = d <;> simp [mapPut, mapGet, hv]
  | cons p m ih =>
    obtain ⟨a, w⟩ := p
    simp only [mapOkFrom, Bool.and_eq_true, decide_eq_true_eq] at h
    simp only [mapPut]
    split
    next hka =>
      split
      · next hv =>
        simp only [mapGet]
        rw [if_neg (by omega), hv]
        exact mapGet_of_mapOkFrom d k (a + 1) m h.2 (by omega)
      · simp [mapGet]
    next hka =>
      split
      · next he =>
        split
        · next hv => rw [hv]; exact mapGet_of_mapOkFrom d k (a + 1) m h.2 (by omega)
        · simp [mapGet]
      · next he =>
        simp only [mapGet]
        rw [if_neg (Ne.symm he)]
        exact ih (a + 1) h.2

/-- In canonical form the value written is read, the default included. -/
theorem mapGet_mapPut {α : Type} [DecidableEq α] (d v : α) (k x : Nat) (m : SMap α) (h : mapOk d m = true) :
    mapGet d (mapPut d k v m) x = if x = k then v else mapGet d m x := by
  split
  · next hx => subst hx; exact mapGet_mapPut_from d v x 0 m h
  · next hx => exact mapGet_mapPut_ne d v k x m hx

/-! ### The canonical form is kept -/

theorem mapOkFrom_mono {α : Type} [DecidableEq α] {d : α} {lo lo' : Nat} {m : SMap α} (h : mapOkFrom d lo m = true)
    (hl : lo' ≤ lo) : mapOkFrom d lo' m = true := by
  cases m with
  | nil => rfl
  | cons p m =>
    simp only [mapOkFrom, Bool.and_eq_true, decide_eq_true_eq] at h ⊢
    exact ⟨⟨by omega, h.1.2⟩, h.2⟩

theorem mapOkFrom_mapPut {α : Type} [DecidableEq α] (d v : α) (k lo : Nat) (m : SMap α)
    (h : mapOkFrom d lo m = true) (hk : lo ≤ k) : mapOkFrom d lo (mapPut d k v m) = true := by
  induction m generalizing lo with
  | nil => by_cases hv : v = d <;> simp [mapPut, mapOkFrom, hv, hk]
  | cons p m ih =>
    obtain ⟨a, w⟩ := p
    have h0 := h
    simp only [mapOkFrom, Bool.and_eq_true, decide_eq_true_eq] at h
    simp only [mapPut]
    split
    next hka =>
      split
      · exact h0
      · next hv =>
        simp only [mapOkFrom, Bool.and_eq_true, decide_eq_true_eq]
        exact ⟨⟨hk, hv⟩, ⟨⟨by omega, h.1.2⟩, h.2⟩⟩
    next hka =>
      split
      · next he =>
        subst he
        split
        · exact mapOkFrom_mono h.2 (by omega)
        · next hv =>
          simp only [mapOkFrom, Bool.and_eq_true, decide_eq_true_eq]
          exact ⟨⟨hk, hv⟩, h.2⟩
      · next he =>
        simp only [mapOkFrom, Bool.and_eq_true, decide_eq_true_eq]
        exact ⟨h.1, ih (a + 1) h.2 (by omega)⟩

/-- A write keeps the canonical form of a map. -/
theorem mapOk_mapPut {α : Type} [DecidableEq α] (d v : α) (k : Nat) (m : SMap α) (h : mapOk d m = true) :
    mapOk d (mapPut d k v m) = true := mapOkFrom_mapPut d v k 0 m h (Nat.zero_le k)

theorem mapOk_mapMod {α : Type} [DecidableEq α] (d : α) (k : Nat) (f : α → α) (m : SMap α) (h : mapOk d m = true) :
    mapOk d (mapMod d k f m) = true := mapOk_mapPut d _ k m h

/-- Dropping entries keeps the canonical form. -/
theorem mapOkFrom_filter {α : Type} [DecidableEq α] (d : α) (p : Nat × α → Bool) (lo : Nat) (m : SMap α)
    (h : mapOkFrom d lo m = true) : mapOkFrom d lo (m.filter p) = true := by
  induction m generalizing lo with
  | nil => rfl
  | cons x m ih =>
    obtain ⟨a, w⟩ := x
    simp only [mapOkFrom, Bool.and_eq_true, decide_eq_true_eq] at h
    simp only [List.filter_cons]
    split
    · simp only [mapOkFrom, Bool.and_eq_true, decide_eq_true_eq]
      exact ⟨h.1, ih (a + 1) h.2⟩
    · exact mapOkFrom_mono (ih (a + 1) h.2) (by omega)

theorem mapOk_mapClear {α : Type} [DecidableEq α] (d : α) (a n : Nat) (m : SMap α) (h : mapOk d m = true) :
    mapOk d (mapClear a n m) = true := mapOkFrom_filter d _ 0 m h

theorem memOk_memZero (m : Mem) (a n : Nat) (h : memOk m = true) : memOk (memZero m a n) = true :=
  mapOkFrom_filter 0 _ 0 m h

theorem memOk_memWrite (m : Mem) (a : Nat) (bs : List Byte) (h : memOk m = true) : memOk (memWrite m a bs) = true := by
  induction bs generalizing m a with
  | nil => exact h
  | cons b bs ih => exact ih _ _ (mapOk_mapPut 0 b a m h)

theorem memOk_memWriteMask (m : Mem) (a mask : Nat) (bs : List Byte) (h : memOk m = true) :
    memOk (memWriteMask m a mask bs) = true := by
  induction bs generalizing m a mask with
  | nil => exact h
  | cons b bs ih =>
    apply ih
    split
    · exact mapOk_mapPut 0 b a m h
    · exact h

theorem mapOkFrom_memOf (a : Nat) (bs : List Byte) : mapOkFrom 0 a (memOf a bs) = true := by
  induction bs generalizing a with
  | nil => rfl
  | cons b bs ih =>
    simp only [memOf]
    split
    · exact mapOkFrom_mono (ih (a + 1)) (by omega)
    · next hb =>
      simp only [mapOkFrom, Bool.and_eq_true, decide_eq_true_eq]
      exact ⟨⟨Nat.le_refl a, hb⟩, ih (a + 1)⟩

theorem memOk_memOf (a : Nat) (bs : List Byte) : memOk (memOf a bs) = true :=
  mapOkFrom_mono (mapOkFrom_memOf a bs) (Nat.zero_le a)

/-- Moving a range keeps its order. -/
theorem memOk_memSlice (m : Mem) (a n b : Nat) (h : memOk m = true) : memOk (memSlice m a n b) = true := by
  have key : ∀ (m : Mem) (lo : Nat), (∀ p ∈ m, a ≤ p.1) → mapOkFrom 0 lo m = true →
      mapOkFrom 0 (lo - a + b) (m.map (fun p => (p.1 - a + b, p.2))) = true := by
    intro m
    induction m with
    | nil => intros; rfl
    | cons p m ih =>
      obtain ⟨k, w⟩ := p
      intro lo hall hok
      simp only [mapOkFrom, Bool.and_eq_true, decide_eq_true_eq] at hok
      have hk : a ≤ k := hall (k, w) (by simp)
      simp only [List.map_cons, mapOkFrom, Bool.and_eq_true, decide_eq_true_eq]
      refine ⟨⟨by omega, hok.1.2⟩, ?_⟩
      have := ih (k + 1) (fun p hp => hall p (List.mem_cons_of_mem _ hp)) hok.2
      rwa [show k + 1 - a + b = k - a + b + 1 by omega] at this
  have := key (m.filter (fun p => decide (a ≤ p.1) && decide (p.1 < a + n))) 0
    (fun p hp => by simpa using (List.mem_filter.1 hp).2 |> fun h => (by simpa using h : a ≤ p.1 ∧ p.1 < a + n).1)
    (mapOkFrom_filter 0 _ 0 m h)
  exact mapOkFrom_mono this (Nat.zero_le _)

/-- Two canonical maps, the keys of the first below those of the second, make one. -/
theorem mapOkFrom_append {α : Type} [DecidableEq α] (d : α) (lo mid : Nat) (x y : SMap α)
    (hx : mapOkFrom d lo x = true) (hlt : ∀ p ∈ x, p.1 < mid) (hy : mapOkFrom d mid y = true) (hl : lo ≤ mid) :
    mapOkFrom d lo (x ++ y) = true := by
  induction x generalizing lo with
  | nil => exact mapOkFrom_mono hy hl
  | cons p x ih =>
    obtain ⟨a, w⟩ := p
    simp only [mapOkFrom, Bool.and_eq_true, decide_eq_true_eq] at hx
    have ha : a < mid := hlt (a, w) (by simp)
    simp only [List.cons_append, mapOkFrom, Bool.and_eq_true, decide_eq_true_eq]
    exact ⟨hx.1, ih (a + 1) hx.2 (fun p hp => hlt p (List.mem_cons_of_mem _ hp)) (by omega)⟩

theorem mapOkFrom_raise {α : Type} [DecidableEq α] (d : α) (lo lo' : Nat) (m : SMap α) (h : mapOkFrom d lo m = true)
    (hm : ∀ p ∈ m, lo' ≤ p.1) : mapOkFrom d lo' m = true := by
  cases m with
  | nil => rfl
  | cons p m =>
    simp only [mapOkFrom, Bool.and_eq_true, decide_eq_true_eq] at h ⊢
    exact ⟨⟨hm p (by simp), h.1.2⟩, h.2⟩

/-- Replacing a range by another memory's keeps the canonical form. -/
theorem memOk_memSplice (m : Mem) (a n : Nat) (es : Mem) (h : memOk m = true) (he : memOk es = true) :
    memOk (memSplice m a n es) = true := by
  have hmid : mapOkFrom 0 a (es.filter (fun p => decide (a ≤ p.1) && decide (p.1 < a + n))) = true :=
    mapOkFrom_raise 0 0 a _ (mapOkFrom_filter 0 _ 0 es he) (fun p hp => by
      have := (List.mem_filter.1 hp).2
      simp only [Bool.and_eq_true, decide_eq_true_eq] at this
      exact this.1)
  have hend : mapOkFrom 0 (a + n) (m.filter (fun p => decide (a + n ≤ p.1))) = true :=
    mapOkFrom_raise 0 0 _ _ (mapOkFrom_filter 0 _ 0 m h) (fun p hp => by
      have := (List.mem_filter.1 hp).2
      simpa using this)
  have hfirst := mapOkFrom_append 0 0 a _ _ (mapOkFrom_filter 0 (fun p => decide (p.1 < a)) 0 m h)
    (fun p hp => by simpa using (List.mem_filter.1 hp).2) hmid (Nat.zero_le _)
  exact mapOkFrom_append 0 0 (a + n) _ _ hfirst (fun p hp => by
      rcases List.mem_append.1 hp with hp | hp
      · have := (List.mem_filter.1 hp).2
        simp only [decide_eq_true_eq] at this
        omega
      · have := (List.mem_filter.1 hp).2
        simp only [Bool.and_eq_true, decide_eq_true_eq] at this
        exact this.2) hend (Nat.zero_le _)

/-! ### Bytes after a store -/

/-- A byte outside the bytes stored reads as before. -/
theorem memByte_memWrite_other (m : Mem) (a : Nat) (bs : List Byte) (x : Nat) (h : x < a ∨ a + bs.length ≤ x) :
    memByte (memWrite m a bs) x = memByte m x := by
  induction bs generalizing m a with
  | nil => rfl
  | cons b bs ih =>
    simp only [List.length_cons] at h
    rw [memWrite, ih _ _ (by omega)]
    exact mapGet_mapPut_ne 0 b a x m (by omega)

/-- The bytes stored are read. -/
theorem memRead_memWrite (m : Mem) (a : Nat) (bs : List Byte) (h : memOk m = true) :
    memRead (memWrite m a bs) a bs.length = bs := by
  induction bs generalizing m a with
  | nil => rfl
  | cons b bs ih =>
    simp only [List.length_cons, memRead, memWrite]
    rw [ih _ _ (mapOk_mapPut 0 b a m h), memByte_memWrite_other _ _ _ _ (by omega)]
    simp only [memByte, mapGet_mapPut 0 b a a m h, if_true]

/-- Bytes read beside a store are those that were there. -/
theorem memRead_memWrite_other (m : Mem) (a : Nat) (bs : List Byte) (x n : Nat)
    (h : x + n ≤ a ∨ a + bs.length ≤ x) : memRead (memWrite m a bs) x n = memRead m x n := by
  induction n generalizing x with
  | zero => rfl
  | succ n ih =>
    simp only [memRead]
    rw [ih (x + 1) (by omega), memByte_memWrite_other _ _ _ _ (by omega)]

/-- The memories of the module right after reset list nothing. -/
theorem wf_reset : Memory.wf State.reset.dev.hbm = true ∧ Memory.wf State.reset.dev.host = true
    ∧ Memory.wf State.reset.dev.bench = true := ⟨rfl, rfl, rfl⟩

end Sys2Proof.Machine
end

