-- ==== Sys2Proof/Laws/State.lean ====
section
/-!
SUPPORT. What each named update of the module's state leaves: one lemma per update and field that it does not touch, and
what reading the updated unit gives.
-/

namespace Sys2Proof.Machine

/-! ### modCore -/

section

variable (c : Nat) (f : Core → Core) (d : Dev)

@[simp] theorem modCore_pwr : (modCore c f d).pwr = d.pwr := rfl
@[simp] theorem modCore_kt : (modCore c f d).kt = d.kt := rfl
@[simp] theorem modCore_flash : (modCore c f d).flash = d.flash := rfl
@[simp] theorem modCore_run : (modCore c f d).run = d.run := rfl
@[simp] theorem modCore_ports : (modCore c f d).ports = d.ports := rfl
@[simp] theorem modCore_tab : (modCore c f d).tab = d.tab := rfl
@[simp] theorem modCore_fab : (modCore c f d).fab = d.fab := rfl
@[simp] theorem modCore_hbmc : (modCore c f d).hbmc = d.hbmc := rfl
@[simp] theorem modCore_deck : (modCore c f d).deck = d.deck := rfl
@[simp] theorem modCore_glues : (modCore c f d).glues = d.glues := rfl
@[simp] theorem modCore_hbm : (modCore c f d).hbm = d.hbm := rfl
@[simp] theorem modCore_hbmPoison : (modCore c f d).hbmPoison = d.hbmPoison := rfl
@[simp] theorem modCore_host : (modCore c f d).host = d.host := rfl
@[simp] theorem modCore_hostPoison : (modCore c f d).hostPoison = d.hostPoison := rfl
@[simp] theorem modCore_bench : (modCore c f d).bench = d.bench := rfl
@[simp] theorem modCore_benchPoison : (modCore c f d).benchPoison = d.benchPoison := rfl
@[simp] theorem modCore_joist : (modCore c f d).joist = d.joist := rfl
@[simp] theorem modCore_vx : (modCore c f d).vx = d.vx := rfl
@[simp] theorem modCore_queues : (modCore c f d).queues = d.queues := rfl
@[simp] theorem modCore_parts : (modCore c f d).parts = d.parts := rfl
@[simp] theorem modCore_shadow : (modCore c f d).shadow = d.shadow := rfl
@[simp] theorem modCore_flagVc : (modCore c f d).flagVc = d.flagVc := rfl
@[simp] theorem modCore_saved : (modCore c f d).saved = d.saved := rfl
@[simp] theorem modCore_flags : (modCore c f d).flags = d.flags := rfl
@[simp] theorem modCore_chans : (modCore c f d).chans = d.chans := rfl
@[simp] theorem modCore_dvRr : (modCore c f d).dvRr = d.dvRr := rfl
@[simp] theorem modCore_planers : (modCore c f d).planers = d.planers := rfl
@[simp] theorem modCore_ctxs : (modCore c f d).ctxs = d.ctxs := rfl
@[simp] theorem modCore_hostp : (modCore c f d).hostp = d.hostp := rfl
@[simp] theorem modCore_err : (modCore c f d).err = d.err := rfl
@[simp] theorem modCore_attn : (modCore c f d).attn = d.attn := rfl
@[simp] theorem modCore_kz : (modCore c f d).kz = d.kz := rfl
@[simp] theorem modCore_pier : (modCore c f d).pier = d.pier := rfl
@[simp] theorem modCore_spdm : (modCore c f d).spdm = d.spdm := rfl
@[simp] theorem modCore_resets : (modCore c f d).resets = d.resets := rfl
@[simp] theorem modCore_xcache : (modCore c f d).xcache = d.xcache := rfl
@[simp] theorem modCore_ctxDirty : (modCore c f d).ctxDirty = d.ctxDirty := rfl
@[simp] theorem modCore_fcache : (modCore c f d).fcache = d.fcache := rfl
@[simp] theorem modCore_late : (modCore c f d).late = d.late := rfl
@[simp] theorem modCore_free : (modCore c f d).free = d.free := rfl

end

/-! ### modQueue -/

section

variable (c q : Nat) (f : QueueSt → QueueSt) (d : Dev)

@[simp] theorem modQueue_pwr : (modQueue c q f d).pwr = d.pwr := rfl
@[simp] theorem modQueue_kt : (modQueue c q f d).kt = d.kt := rfl
@[simp] theorem modQueue_flash : (modQueue c q f d).flash = d.flash := rfl
@[simp] theorem modQueue_run : (modQueue c q f d).run = d.run := rfl
@[simp] theorem modQueue_ports : (modQueue c q f d).ports = d.ports := rfl
@[simp] theorem modQueue_tab : (modQueue c q f d).tab = d.tab := rfl
@[simp] theorem modQueue_fab : (modQueue c q f d).fab = d.fab := rfl
@[simp] theorem modQueue_hbmc : (modQueue c q f d).hbmc = d.hbmc := rfl
@[simp] theorem modQueue_deck : (modQueue c q f d).deck = d.deck := rfl
@[simp] theorem modQueue_glues : (modQueue c q f d).glues = d.glues := rfl
@[simp] theorem modQueue_hbm : (modQueue c q f d).hbm = d.hbm := rfl
@[simp] theorem modQueue_hbmPoison : (modQueue c q f d).hbmPoison = d.hbmPoison := rfl
@[simp] theorem modQueue_host : (modQueue c q f d).host = d.host := rfl
@[simp] theorem modQueue_hostPoison : (modQueue c q f d).hostPoison = d.hostPoison := rfl
@[simp] theorem modQueue_bench : (modQueue c q f d).bench = d.bench := rfl
@[simp] theorem modQueue_benchPoison : (modQueue c q f d).benchPoison = d.benchPoison := rfl
@[simp] theorem modQueue_joist : (modQueue c q f d).joist = d.joist := rfl
@[simp] theorem modQueue_vx : (modQueue c q f d).vx = d.vx := rfl
@[simp] theorem modQueue_cores : (modQueue c q f d).cores = d.cores := rfl
@[simp] theorem modQueue_parts : (modQueue c q f d).parts = d.parts := rfl
@[simp] theorem modQueue_shadow : (modQueue c q f d).shadow = d.shadow := rfl
@[simp] theorem modQueue_flagVc : (modQueue c q f d).flagVc = d.flagVc := rfl
@[simp] theorem modQueue_saved : (modQueue c q f d).saved = d.saved := rfl
@[simp] theorem modQueue_flags : (modQueue c q f d).flags = d.flags := rfl
@[simp] theorem modQueue_chans : (modQueue c q f d).chans = d.chans := rfl
@[simp] theorem modQueue_dvRr : (modQueue c q f d).dvRr = d.dvRr := rfl
@[simp] theorem modQueue_planers : (modQueue c q f d).planers = d.planers := rfl
@[simp] theorem modQueue_ctxs : (modQueue c q f d).ctxs = d.ctxs := rfl
@[simp] theorem modQueue_hostp : (modQueue c q f d).hostp = d.hostp := rfl
@[simp] theorem modQueue_err : (modQueue c q f d).err = d.err := rfl
@[simp] theorem modQueue_attn : (modQueue c q f d).attn = d.attn := rfl
@[simp] theorem modQueue_kz : (modQueue c q f d).kz = d.kz := rfl
@[simp] theorem modQueue_pier : (modQueue c q f d).pier = d.pier := rfl
@[simp] theorem modQueue_spdm : (modQueue c q f d).spdm = d.spdm := rfl
@[simp] theorem modQueue_resets : (modQueue c q f d).resets = d.resets := rfl
@[simp] theorem modQueue_xcache : (modQueue c q f d).xcache = d.xcache := rfl
@[simp] theorem modQueue_ctxDirty : (modQueue c q f d).ctxDirty = d.ctxDirty := rfl
@[simp] theorem modQueue_fcache : (modQueue c q f d).fcache = d.fcache := rfl
@[simp] theorem modQueue_late : (modQueue c q f d).late = d.late := rfl
@[simp] theorem modQueue_free : (modQueue c q f d).free = d.free := rfl

end

/-! ### modCtx -/

section

variable (n : Nat) (f : Ctx → Ctx) (d : Dev)

@[simp] theorem modCtx_pwr : (modCtx n f d).pwr = d.pwr := rfl
@[simp] theorem modCtx_kt : (modCtx n f d).kt = d.kt := rfl
@[simp] theorem modCtx_flash : (modCtx n f d).flash = d.flash := rfl
@[simp] theorem modCtx_run : (modCtx n f d).run = d.run := rfl
@[simp] theorem modCtx_ports : (modCtx n f d).ports = d.ports := rfl
@[simp] theorem modCtx_tab : (modCtx n f d).tab = d.tab := rfl
@[simp] theorem modCtx_fab : (modCtx n f d).fab = d.fab := rfl
@[simp] theorem modCtx_hbmc : (modCtx n f d).hbmc = d.hbmc := rfl
@[simp] theorem modCtx_deck : (modCtx n f d).deck = d.deck := rfl
@[simp] theorem modCtx_glues : (modCtx n f d).glues = d.glues := rfl
@[simp] theorem modCtx_hbm : (modCtx n f d).hbm = d.hbm := rfl
@[simp] theorem modCtx_hbmPoison : (modCtx n f d).hbmPoison = d.hbmPoison := rfl
@[simp] theorem modCtx_host : (modCtx n f d).host = d.host := rfl
@[simp] theorem modCtx_hostPoison : (modCtx n f d).hostPoison = d.hostPoison := rfl
@[simp] theorem modCtx_bench : (modCtx n f d).bench = d.bench := rfl
@[simp] theorem modCtx_benchPoison : (modCtx n f d).benchPoison = d.benchPoison := rfl
@[simp] theorem modCtx_joist : (modCtx n f d).joist = d.joist := rfl
@[simp] theorem modCtx_vx : (modCtx n f d).vx = d.vx := rfl
@[simp] theorem modCtx_cores : (modCtx n f d).cores = d.cores := rfl
@[simp] theorem modCtx_queues : (modCtx n f d).queues = d.queues := rfl
@[simp] theorem modCtx_parts : (modCtx n f d).parts = d.parts := rfl
@[simp] theorem modCtx_shadow : (modCtx n f d).shadow = d.shadow := rfl
@[simp] theorem modCtx_flagVc : (modCtx n f d).flagVc = d.flagVc := rfl
@[simp] theorem modCtx_saved : (modCtx n f d).saved = d.saved := rfl
@[simp] theorem modCtx_flags : (modCtx n f d).flags = d.flags := rfl
@[simp] theorem modCtx_chans : (modCtx n f d).chans = d.chans := rfl
@[simp] theorem modCtx_dvRr : (modCtx n f d).dvRr = d.dvRr := rfl
@[simp] theorem modCtx_planers : (modCtx n f d).planers = d.planers := rfl
@[simp] theorem modCtx_hostp : (modCtx n f d).hostp = d.hostp := rfl
@[simp] theorem modCtx_err : (modCtx n f d).err = d.err := rfl
@[simp] theorem modCtx_attn : (modCtx n f d).attn = d.attn := rfl
@[simp] theorem modCtx_kz : (modCtx n f d).kz = d.kz := rfl
@[simp] theorem modCtx_pier : (modCtx n f d).pier = d.pier := rfl
@[simp] theorem modCtx_spdm : (modCtx n f d).spdm = d.spdm := rfl
@[simp] theorem modCtx_resets : (modCtx n f d).resets = d.resets := rfl
@[simp] theorem modCtx_xcache : (modCtx n f d).xcache = d.xcache := rfl
@[simp] theorem modCtx_ctxDirty : (modCtx n f d).ctxDirty = d.ctxDirty := rfl
@[simp] theorem modCtx_fcache : (modCtx n f d).fcache = d.fcache := rfl
@[simp] theorem modCtx_late : (modCtx n f d).late = d.late := rfl
@[simp] theorem modCtx_free : (modCtx n f d).free = d.free := rfl

end

/-! ### modPflag -/

section

variable (k : Nat) (f : PFlag → PFlag) (d : Dev)

@[simp] theorem modPflag_pwr : (modPflag k f d).pwr = d.pwr := rfl
@[simp] theorem modPflag_kt : (modPflag k f d).kt = d.kt := rfl
@[simp] theorem modPflag_flash : (modPflag k f d).flash = d.flash := rfl
@[simp] theorem modPflag_run : (modPflag k f d).run = d.run := rfl
@[simp] theorem modPflag_ports : (modPflag k f d).ports = d.ports := rfl
@[simp] theorem modPflag_tab : (modPflag k f d).tab = d.tab := rfl
@[simp] theorem modPflag_fab : (modPflag k f d).fab = d.fab := rfl
@[simp] theorem modPflag_hbmc : (modPflag k f d).hbmc = d.hbmc := rfl
@[simp] theorem modPflag_deck : (modPflag k f d).deck = d.deck := rfl
@[simp] theorem modPflag_glues : (modPflag k f d).glues = d.glues := rfl
@[simp] theorem modPflag_hbm : (modPflag k f d).hbm = d.hbm := rfl
@[simp] theorem modPflag_hbmPoison : (modPflag k f d).hbmPoison = d.hbmPoison := rfl
@[simp] theorem modPflag_host : (modPflag k f d).host = d.host := rfl
@[simp] theorem modPflag_hostPoison : (modPflag k f d).hostPoison = d.hostPoison := rfl
@[simp] theorem modPflag_bench : (modPflag k f d).bench = d.bench := rfl
@[simp] theorem modPflag_benchPoison : (modPflag k f d).benchPoison = d.benchPoison := rfl
@[simp] theorem modPflag_joist : (modPflag k f d).joist = d.joist := rfl
@[simp] theorem modPflag_vx : (modPflag k f d).vx = d.vx := rfl
@[simp] theorem modPflag_cores : (modPflag k f d).cores = d.cores := rfl
@[simp] theorem modPflag_queues : (modPflag k f d).queues = d.queues := rfl
@[simp] theorem modPflag_parts : (modPflag k f d).parts = d.parts := rfl
@[simp] theorem modPflag_shadow : (modPflag k f d).shadow = d.shadow := rfl
@[simp] theorem modPflag_flagVc : (modPflag k f d).flagVc = d.flagVc := rfl
@[simp] theorem modPflag_saved : (modPflag k f d).saved = d.saved := rfl
@[simp] theorem modPflag_chans : (modPflag k f d).chans = d.chans := rfl
@[simp] theorem modPflag_dvRr : (modPflag k f d).dvRr = d.dvRr := rfl
@[simp] theorem modPflag_planers : (modPflag k f d).planers = d.planers := rfl
@[simp] theorem modPflag_ctxs : (modPflag k f d).ctxs = d.ctxs := rfl
@[simp] theorem modPflag_hostp : (modPflag k f d).hostp = d.hostp := rfl
@[simp] theorem modPflag_err : (modPflag k f d).err = d.err := rfl
@[simp] theorem modPflag_attn : (modPflag k f d).attn = d.attn := rfl
@[simp] theorem modPflag_kz : (modPflag k f d).kz = d.kz := rfl
@[simp] theorem modPflag_pier : (modPflag k f d).pier = d.pier := rfl
@[simp] theorem modPflag_spdm : (modPflag k f d).spdm = d.spdm := rfl
@[simp] theorem modPflag_resets : (modPflag k f d).resets = d.resets := rfl
@[simp] theorem modPflag_xcache : (modPflag k f d).xcache = d.xcache := rfl
@[simp] theorem modPflag_ctxDirty : (modPflag k f d).ctxDirty = d.ctxDirty := rfl
@[simp] theorem modPflag_fcache : (modPflag k f d).fcache = d.fcache := rfl
@[simp] theorem modPflag_late : (modPflag k f d).late = d.late := rfl
@[simp] theorem modPflag_free : (modPflag k f d).free = d.free := rfl

end

/-! ### modChan -/

section

variable (m : Nat) (f : Chan → Chan) (d : Dev)

@[simp] theorem modChan_pwr : (modChan m f d).pwr = d.pwr := rfl
@[simp] theorem modChan_kt : (modChan m f d).kt = d.kt := rfl
@[simp] theorem modChan_flash : (modChan m f d).flash = d.flash := rfl
@[simp] theorem modChan_run : (modChan m f d).run = d.run := rfl
@[simp] theorem modChan_ports : (modChan m f d).ports = d.ports := rfl
@[simp] theorem modChan_tab : (modChan m f d).tab = d.tab := rfl
@[simp] theorem modChan_fab : (modChan m f d).fab = d.fab := rfl
@[simp] theorem modChan_hbmc : (modChan m f d).hbmc = d.hbmc := rfl
@[simp] theorem modChan_deck : (modChan m f d).deck = d.deck := rfl
@[simp] theorem modChan_glues : (modChan m f d).glues = d.glues := rfl
@[simp] theorem modChan_hbm : (modChan m f d).hbm = d.hbm := rfl
@[simp] theorem modChan_hbmPoison : (modChan m f d).hbmPoison = d.hbmPoison := rfl
@[simp] theorem modChan_host : (modChan m f d).host = d.host := rfl
@[simp] theorem modChan_hostPoison : (modChan m f d).hostPoison = d.hostPoison := rfl
@[simp] theorem modChan_bench : (modChan m f d).bench = d.bench := rfl
@[simp] theorem modChan_benchPoison : (modChan m f d).benchPoison = d.benchPoison := rfl
@[simp] theorem modChan_joist : (modChan m f d).joist = d.joist := rfl
@[simp] theorem modChan_vx : (modChan m f d).vx = d.vx := rfl
@[simp] theorem modChan_cores : (modChan m f d).cores = d.cores := rfl
@[simp] theorem modChan_queues : (modChan m f d).queues = d.queues := rfl
@[simp] theorem modChan_parts : (modChan m f d).parts = d.parts := rfl
@[simp] theorem modChan_shadow : (modChan m f d).shadow = d.shadow := rfl
@[simp] theorem modChan_flagVc : (modChan m f d).flagVc = d.flagVc := rfl
@[simp] theorem modChan_saved : (modChan m f d).saved = d.saved := rfl
@[simp] theorem modChan_flags : (modChan m f d).flags = d.flags := rfl
@[simp] theorem modChan_dvRr : (modChan m f d).dvRr = d.dvRr := rfl
@[simp] theorem modChan_planers : (modChan m f d).planers = d.planers := rfl
@[simp] theorem modChan_ctxs : (modChan m f d).ctxs = d.ctxs := rfl
@[simp] theorem modChan_hostp : (modChan m f d).hostp = d.hostp := rfl
@[simp] theorem modChan_err : (modChan m f d).err = d.err := rfl
@[simp] theorem modChan_attn : (modChan m f d).attn = d.attn := rfl
@[simp] theorem modChan_kz : (modChan m f d).kz = d.kz := rfl
@[simp] theorem modChan_pier : (modChan m f d).pier = d.pier := rfl
@[simp] theorem modChan_spdm : (modChan m f d).spdm = d.spdm := rfl
@[simp] theorem modChan_resets : (modChan m f d).resets = d.resets := rfl
@[simp] theorem modChan_xcache : (modChan m f d).xcache = d.xcache := rfl
@[simp] theorem modChan_ctxDirty : (modChan m f d).ctxDirty = d.ctxDirty := rfl
@[simp] theorem modChan_fcache : (modChan m f d).fcache = d.fcache := rfl
@[simp] theorem modChan_late : (modChan m f d).late = d.late := rfl
@[simp] theorem modChan_free : (modChan m f d).free = d.free := rfl

end

/-! ### modPort -/

section

variable (p : Nat) (f : Port → Port) (d : Dev)

@[simp] theorem modPort_pwr : (modPort p f d).pwr = d.pwr := rfl
@[simp] theorem modPort_kt : (modPort p f d).kt = d.kt := rfl
@[simp] theorem modPort_flash : (modPort p f d).flash = d.flash := rfl
@[simp] theorem modPort_run : (modPort p f d).run = d.run := rfl
@[simp] theorem modPort_tab : (modPort p f d).tab = d.tab := rfl
@[simp] theorem modPort_fab : (modPort p f d).fab = d.fab := rfl
@[simp] theorem modPort_hbmc : (modPort p f d).hbmc = d.hbmc := rfl
@[simp] theorem modPort_deck : (modPort p f d).deck = d.deck := rfl
@[simp] theorem modPort_glues : (modPort p f d).glues = d.glues := rfl
@[simp] theorem modPort_hbm : (modPort p f d).hbm = d.hbm := rfl
@[simp] theorem modPort_hbmPoison : (modPort p f d).hbmPoison = d.hbmPoison := rfl
@[simp] theorem modPort_host : (modPort p f d).host = d.host := rfl
@[simp] theorem modPort_hostPoison : (modPort p f d).hostPoison = d.hostPoison := rfl
@[simp] theorem modPort_bench : (modPort p f d).bench = d.bench := rfl
@[simp] theorem modPort_benchPoison : (modPort p f d).benchPoison = d.benchPoison := rfl
@[simp] theorem modPort_joist : (modPort p f d).joist = d.joist := rfl
@[simp] theorem modPort_vx : (modPort p f d).vx = d.vx := rfl
@[simp] theorem modPort_cores : (modPort p f d).cores = d.cores := rfl
@[simp] theorem modPort_queues : (modPort p f d).queues = d.queues := rfl
@[simp] theorem modPort_parts : (modPort p f d).parts = d.parts := rfl
@[simp] theorem modPort_shadow : (modPort p f d).shadow = d.shadow := rfl
@[simp] theorem modPort_flagVc : (modPort p f d).flagVc = d.flagVc := rfl
@[simp] theorem modPort_saved : (modPort p f d).saved = d.saved := rfl
@[simp] theorem modPort_flags : (modPort p f d).flags = d.flags := rfl
@[simp] theorem modPort_chans : (modPort p f d).chans = d.chans := rfl
@[simp] theorem modPort_dvRr : (modPort p f d).dvRr = d.dvRr := rfl
@[simp] theorem modPort_planers : (modPort p f d).planers = d.planers := rfl
@[simp] theorem modPort_ctxs : (modPort p f d).ctxs = d.ctxs := rfl
@[simp] theorem modPort_hostp : (modPort p f d).hostp = d.hostp := rfl
@[simp] theorem modPort_err : (modPort p f d).err = d.err := rfl
@[simp] theorem modPort_attn : (modPort p f d).attn = d.attn := rfl
@[simp] theorem modPort_kz : (modPort p f d).kz = d.kz := rfl
@[simp] theorem modPort_pier : (modPort p f d).pier = d.pier := rfl
@[simp] theorem modPort_spdm : (modPort p f d).spdm = d.spdm := rfl
@[simp] theorem modPort_resets : (modPort p f d).resets = d.resets := rfl
@[simp] theorem modPort_xcache : (modPort p f d).xcache = d.xcache := rfl
@[simp] theorem modPort_ctxDirty : (modPort p f d).ctxDirty = d.ctxDirty := rfl
@[simp] theorem modPort_fcache : (modPort p f d).fcache = d.fcache := rfl
@[simp] theorem modPort_late : (modPort p f d).late = d.late := rfl
@[simp] theorem modPort_free : (modPort p f d).free = d.free := rfl

end

/-! ### modRing -/

section

variable (r : Nat) (f : Ring → Ring) (d : Dev)

@[simp] theorem modRing_pwr : (modRing r f d).pwr = d.pwr := rfl
@[simp] theorem modRing_kt : (modRing r f d).kt = d.kt := rfl
@[simp] theorem modRing_flash : (modRing r f d).flash = d.flash := rfl
@[simp] theorem modRing_run : (modRing r f d).run = d.run := rfl
@[simp] theorem modRing_ports : (modRing r f d).ports = d.ports := rfl
@[simp] theorem modRing_tab : (modRing r f d).tab = d.tab := rfl
@[simp] theorem modRing_fab : (modRing r f d).fab = d.fab := rfl
@[simp] theorem modRing_hbmc : (modRing r f d).hbmc = d.hbmc := rfl
@[simp] theorem modRing_deck : (modRing r f d).deck = d.deck := rfl
@[simp] theorem modRing_glues : (modRing r f d).glues = d.glues := rfl
@[simp] theorem modRing_hbm : (modRing r f d).hbm = d.hbm := rfl
@[simp] theorem modRing_hbmPoison : (modRing r f d).hbmPoison = d.hbmPoison := rfl
@[simp] theorem modRing_host : (modRing r f d).host = d.host := rfl
@[simp] theorem modRing_hostPoison : (modRing r f d).hostPoison = d.hostPoison := rfl
@[simp] theorem modRing_bench : (modRing r f d).bench = d.bench := rfl
@[simp] theorem modRing_benchPoison : (modRing r f d).benchPoison = d.benchPoison := rfl
@[simp] theorem modRing_joist : (modRing r f d).joist = d.joist := rfl
@[simp] theorem modRing_vx : (modRing r f d).vx = d.vx := rfl
@[simp] theorem modRing_cores : (modRing r f d).cores = d.cores := rfl
@[simp] theorem modRing_queues : (modRing r f d).queues = d.queues := rfl
@[simp] theorem modRing_parts : (modRing r f d).parts = d.parts := rfl
@[simp] theorem modRing_shadow : (modRing r f d).shadow = d.shadow := rfl
@[simp] theorem modRing_flagVc : (modRing r f d).flagVc = d.flagVc := rfl
@[simp] theorem modRing_saved : (modRing r f d).saved = d.saved := rfl
@[simp] theorem modRing_flags : (modRing r f d).flags = d.flags := rfl
@[simp] theorem modRing_chans : (modRing r f d).chans = d.chans := rfl
@[simp] theorem modRing_dvRr : (modRing r f d).dvRr = d.dvRr := rfl
@[simp] theorem modRing_planers : (modRing r f d).planers = d.planers := rfl
@[simp] theorem modRing_ctxs : (modRing r f d).ctxs = d.ctxs := rfl
@[simp] theorem modRing_err : (modRing r f d).err = d.err := rfl
@[simp] theorem modRing_attn : (modRing r f d).attn = d.attn := rfl
@[simp] theorem modRing_kz : (modRing r f d).kz = d.kz := rfl
@[simp] theorem modRing_pier : (modRing r f d).pier = d.pier := rfl
@[simp] theorem modRing_spdm : (modRing r f d).spdm = d.spdm := rfl
@[simp] theorem modRing_resets : (modRing r f d).resets = d.resets := rfl
@[simp] theorem modRing_xcache : (modRing r f d).xcache = d.xcache := rfl
@[simp] theorem modRing_ctxDirty : (modRing r f d).ctxDirty = d.ctxDirty := rfl
@[simp] theorem modRing_fcache : (modRing r f d).fcache = d.fcache := rfl
@[simp] theorem modRing_late : (modRing r f d).late = d.late := rfl
@[simp] theorem modRing_free : (modRing r f d).free = d.free := rfl

end

/-! ### setJrow -/

section

variable (c r : Nat) (x : JRow) (d : Dev)

@[simp] theorem setJrow_pwr : (setJrow c r x d).pwr = d.pwr := rfl
@[simp] theorem setJrow_kt : (setJrow c r x d).kt = d.kt := rfl
@[simp] theorem setJrow_flash : (setJrow c r x d).flash = d.flash := rfl
@[simp] theorem setJrow_run : (setJrow c r x d).run = d.run := rfl
@[simp] theorem setJrow_ports : (setJrow c r x d).ports = d.ports := rfl
@[simp] theorem setJrow_tab : (setJrow c r x d).tab = d.tab := rfl
@[simp] theorem setJrow_fab : (setJrow c r x d).fab = d.fab := rfl
@[simp] theorem setJrow_hbmc : (setJrow c r x d).hbmc = d.hbmc := rfl
@[simp] theorem setJrow_deck : (setJrow c r x d).deck = d.deck := rfl
@[simp] theorem setJrow_glues : (setJrow c r x d).glues = d.glues := rfl
@[simp] theorem setJrow_hbm : (setJrow c r x d).hbm = d.hbm := rfl
@[simp] theorem setJrow_hbmPoison : (setJrow c r x d).hbmPoison = d.hbmPoison := rfl
@[simp] theorem setJrow_host : (setJrow c r x d).host = d.host := rfl
@[simp] theorem setJrow_hostPoison : (setJrow c r x d).hostPoison = d.hostPoison := rfl
@[simp] theorem setJrow_bench : (setJrow c r x d).bench = d.bench := rfl
@[simp] theorem setJrow_benchPoison : (setJrow c r x d).benchPoison = d.benchPoison := rfl
@[simp] theorem setJrow_vx : (setJrow c r x d).vx = d.vx := rfl
@[simp] theorem setJrow_cores : (setJrow c r x d).cores = d.cores := rfl
@[simp] theorem setJrow_queues : (setJrow c r x d).queues = d.queues := rfl
@[simp] theorem setJrow_parts : (setJrow c r x d).parts = d.parts := rfl
@[simp] theorem setJrow_shadow : (setJrow c r x d).shadow = d.shadow := rfl
@[simp] theorem setJrow_flagVc : (setJrow c r x d).flagVc = d.flagVc := rfl
@[simp] theorem setJrow_saved : (setJrow c r x d).saved = d.saved := rfl
@[simp] theorem setJrow_flags : (setJrow c r x d).flags = d.flags := rfl
@[simp] theorem setJrow_chans : (setJrow c r x d).chans = d.chans := rfl
@[simp] theorem setJrow_dvRr : (setJrow c r x d).dvRr = d.dvRr := rfl
@[simp] theorem setJrow_planers : (setJrow c r x d).planers = d.planers := rfl
@[simp] theorem setJrow_ctxs : (setJrow c r x d).ctxs = d.ctxs := rfl
@[simp] theorem setJrow_hostp : (setJrow c r x d).hostp = d.hostp := rfl
@[simp] theorem setJrow_err : (setJrow c r x d).err = d.err := rfl
@[simp] theorem setJrow_attn : (setJrow c r x d).attn = d.attn := rfl
@[simp] theorem setJrow_kz : (setJrow c r x d).kz = d.kz := rfl
@[simp] theorem setJrow_pier : (setJrow c r x d).pier = d.pier := rfl
@[simp] theorem setJrow_spdm : (setJrow c r x d).spdm = d.spdm := rfl
@[simp] theorem setJrow_resets : (setJrow c r x d).resets = d.resets := rfl
@[simp] theorem setJrow_xcache : (setJrow c r x d).xcache = d.xcache := rfl
@[simp] theorem setJrow_ctxDirty : (setJrow c r x d).ctxDirty = d.ctxDirty := rfl
@[simp] theorem setJrow_fcache : (setJrow c r x d).fcache = d.fcache := rfl
@[simp] theorem setJrow_late : (setJrow c r x d).late = d.late := rfl
@[simp] theorem setJrow_free : (setJrow c r x d).free = d.free := rfl

end

/-! ### setVxLane -/

section

variable (c r l : Nat) (v : BitVec 32) (d : Dev)

@[simp] theorem setVxLane_pwr : (setVxLane c r l v d).pwr = d.pwr := rfl
@[simp] theorem setVxLane_kt : (setVxLane c r l v d).kt = d.kt := rfl
@[simp] theorem setVxLane_flash : (setVxLane c r l v d).flash = d.flash := rfl
@[simp] theorem setVxLane_run : (setVxLane c r l v d).run = d.run := rfl
@[simp] theorem setVxLane_ports : (setVxLane c r l v d).ports = d.ports := rfl
@[simp] theorem setVxLane_tab : (setVxLane c r l v d).tab = d.tab := rfl
@[simp] theorem setVxLane_fab : (setVxLane c r l v d).fab = d.fab := rfl
@[simp] theorem setVxLane_hbmc : (setVxLane c r l v d).hbmc = d.hbmc := rfl
@[simp] theorem setVxLane_deck : (setVxLane c r l v d).deck = d.deck := rfl
@[simp] theorem setVxLane_glues : (setVxLane c r l v d).glues = d.glues := rfl
@[simp] theorem setVxLane_hbm : (setVxLane c r l v d).hbm = d.hbm := rfl
@[simp] theorem setVxLane_hbmPoison : (setVxLane c r l v d).hbmPoison = d.hbmPoison := rfl
@[simp] theorem setVxLane_host : (setVxLane c r l v d).host = d.host := rfl
@[simp] theorem setVxLane_hostPoison : (setVxLane c r l v d).hostPoison = d.hostPoison := rfl
@[simp] theorem setVxLane_bench : (setVxLane c r l v d).bench = d.bench := rfl
@[simp] theorem setVxLane_benchPoison : (setVxLane c r l v d).benchPoison = d.benchPoison := rfl
@[simp] theorem setVxLane_joist : (setVxLane c r l v d).joist = d.joist := rfl
@[simp] theorem setVxLane_cores : (setVxLane c r l v d).cores = d.cores := rfl
@[simp] theorem setVxLane_queues : (setVxLane c r l v d).queues = d.queues := rfl
@[simp] theorem setVxLane_parts : (setVxLane c r l v d).parts = d.parts := rfl
@[simp] theorem setVxLane_shadow : (setVxLane c r l v d).shadow = d.shadow := rfl
@[simp] theorem setVxLane_flagVc : (setVxLane c r l v d).flagVc = d.flagVc := rfl
@[simp] theorem setVxLane_saved : (setVxLane c r l v d).saved = d.saved := rfl
@[simp] theorem setVxLane_flags : (setVxLane c r l v d).flags = d.flags := rfl
@[simp] theorem setVxLane_chans : (setVxLane c r l v d).chans = d.chans := rfl
@[simp] theorem setVxLane_dvRr : (setVxLane c r l v d).dvRr = d.dvRr := rfl
@[simp] theorem setVxLane_planers : (setVxLane c r l v d).planers = d.planers := rfl
@[simp] theorem setVxLane_ctxs : (setVxLane c r l v d).ctxs = d.ctxs := rfl
@[simp] theorem setVxLane_hostp : (setVxLane c r l v d).hostp = d.hostp := rfl
@[simp] theorem setVxLane_err : (setVxLane c r l v d).err = d.err := rfl
@[simp] theorem setVxLane_attn : (setVxLane c r l v d).attn = d.attn := rfl
@[simp] theorem setVxLane_kz : (setVxLane c r l v d).kz = d.kz := rfl
@[simp] theorem setVxLane_pier : (setVxLane c r l v d).pier = d.pier := rfl
@[simp] theorem setVxLane_spdm : (setVxLane c r l v d).spdm = d.spdm := rfl
@[simp] theorem setVxLane_resets : (setVxLane c r l v d).resets = d.resets := rfl
@[simp] theorem setVxLane_xcache : (setVxLane c r l v d).xcache = d.xcache := rfl
@[simp] theorem setVxLane_ctxDirty : (setVxLane c r l v d).ctxDirty = d.ctxDirty := rfl
@[simp] theorem setVxLane_fcache : (setVxLane c r l v d).fcache = d.fcache := rfl
@[simp] theorem setVxLane_late : (setVxLane c r l v d).late = d.late := rfl
@[simp] theorem setVxLane_free : (setVxLane c r l v d).free = d.free := rfl

end

/-! ### benchWrite -/

section

variable (c a : Nat) (bs : List Byte) (d : Dev)

@[simp] theorem benchWrite_pwr : (benchWrite c a bs d).pwr = d.pwr := rfl
@[simp] theorem benchWrite_kt : (benchWrite c a bs d).kt = d.kt := rfl
@[simp] theorem benchWrite_flash : (benchWrite c a bs d).flash = d.flash := rfl
@[simp] theorem benchWrite_run : (benchWrite c a bs d).run = d.run := rfl
@[simp] theorem benchWrite_ports : (benchWrite c a bs d).ports = d.ports := rfl
@[simp] theorem benchWrite_tab : (benchWrite c a bs d).tab = d.tab := rfl
@[simp] theorem benchWrite_fab : (benchWrite c a bs d).fab = d.fab := rfl
@[simp] theorem benchWrite_hbmc : (benchWrite c a bs d).hbmc = d.hbmc := rfl
@[simp] theorem benchWrite_deck : (benchWrite c a bs d).deck = d.deck := rfl
@[simp] theorem benchWrite_glues : (benchWrite c a bs d).glues = d.glues := rfl
@[simp] theorem benchWrite_hbm : (benchWrite c a bs d).hbm = d.hbm := rfl
@[simp] theorem benchWrite_hbmPoison : (benchWrite c a bs d).hbmPoison = d.hbmPoison := rfl
@[simp] theorem benchWrite_host : (benchWrite c a bs d).host = d.host := rfl
@[simp] theorem benchWrite_hostPoison : (benchWrite c a bs d).hostPoison = d.hostPoison := rfl
@[simp] theorem benchWrite_joist : (benchWrite c a bs d).joist = d.joist := rfl
@[simp] theorem benchWrite_vx : (benchWrite c a bs d).vx = d.vx := rfl
@[simp] theorem benchWrite_cores : (benchWrite c a bs d).cores = d.cores := rfl
@[simp] theorem benchWrite_queues : (benchWrite c a bs d).queues = d.queues := rfl
@[simp] theorem benchWrite_parts : (benchWrite c a bs d).parts = d.parts := rfl
@[simp] theorem benchWrite_shadow : (benchWrite c a bs d).shadow = d.shadow := rfl
@[simp] theorem benchWrite_flagVc : (benchWrite c a bs d).flagVc = d.flagVc := rfl
@[simp] theorem benchWrite_saved : (benchWrite c a bs d).saved = d.saved := rfl
@[simp] theorem benchWrite_flags : (benchWrite c a bs d).flags = d.flags := rfl
@[simp] theorem benchWrite_chans : (benchWrite c a bs d).chans = d.chans := rfl
@[simp] theorem benchWrite_dvRr : (benchWrite c a bs d).dvRr = d.dvRr := rfl
@[simp] theorem benchWrite_planers : (benchWrite c a bs d).planers = d.planers := rfl
@[simp] theorem benchWrite_ctxs : (benchWrite c a bs d).ctxs = d.ctxs := rfl
@[simp] theorem benchWrite_hostp : (benchWrite c a bs d).hostp = d.hostp := rfl
@[simp] theorem benchWrite_err : (benchWrite c a bs d).err = d.err := rfl
@[simp] theorem benchWrite_attn : (benchWrite c a bs d).attn = d.attn := rfl
@[simp] theorem benchWrite_kz : (benchWrite c a bs d).kz = d.kz := rfl
@[simp] theorem benchWrite_pier : (benchWrite c a bs d).pier = d.pier := rfl
@[simp] theorem benchWrite_spdm : (benchWrite c a bs d).spdm = d.spdm := rfl
@[simp] theorem benchWrite_resets : (benchWrite c a bs d).resets = d.resets := rfl
@[simp] theorem benchWrite_xcache : (benchWrite c a bs d).xcache = d.xcache := rfl
@[simp] theorem benchWrite_ctxDirty : (benchWrite c a bs d).ctxDirty = d.ctxDirty := rfl
@[simp] theorem benchWrite_fcache : (benchWrite c a bs d).fcache = d.fcache := rfl
@[simp] theorem benchWrite_late : (benchWrite c a bs d).late = d.late := rfl
@[simp] theorem benchWrite_free : (benchWrite c a bs d).free = d.free := rfl

end

/-! ### zeroCore -/

section

variable (c : Nat) (d : Dev)

@[simp] theorem zeroCore_pwr : (zeroCore c d).pwr = d.pwr := rfl
@[simp] theorem zeroCore_kt : (zeroCore c d).kt = d.kt := rfl
@[simp] theorem zeroCore_flash : (zeroCore c d).flash = d.flash := rfl
@[simp] theorem zeroCore_run : (zeroCore c d).run = d.run := rfl
@[simp] theorem zeroCore_ports : (zeroCore c d).ports = d.ports := rfl
@[simp] theorem zeroCore_tab : (zeroCore c d).tab = d.tab := rfl
@[simp] theorem zeroCore_fab : (zeroCore c d).fab = d.fab := rfl
@[simp] theorem zeroCore_hbmc : (zeroCore c d).hbmc = d.hbmc := rfl
@[simp] theorem zeroCore_deck : (zeroCore c d).deck = d.deck := rfl
@[simp] theorem zeroCore_glues : (zeroCore c d).glues = d.glues := rfl
@[simp] theorem zeroCore_hbm : (zeroCore c d).hbm = d.hbm := rfl
@[simp] theorem zeroCore_hbmPoison : (zeroCore c d).hbmPoison = d.hbmPoison := rfl
@[simp] theorem zeroCore_host : (zeroCore c d).host = d.host := rfl
@[simp] theorem zeroCore_hostPoison : (zeroCore c d).hostPoison = d.hostPoison := rfl
@[simp] theorem zeroCore_vx : (zeroCore c d).vx = d.vx := rfl
@[simp] theorem zeroCore_cores : (zeroCore c d).cores = d.cores := rfl
@[simp] theorem zeroCore_queues : (zeroCore c d).queues = d.queues := rfl
@[simp] theorem zeroCore_parts : (zeroCore c d).parts = d.parts := rfl
@[simp] theorem zeroCore_shadow : (zeroCore c d).shadow = d.shadow := rfl
@[simp] theorem zeroCore_flagVc : (zeroCore c d).flagVc = d.flagVc := rfl
@[simp] theorem zeroCore_saved : (zeroCore c d).saved = d.saved := rfl
@[simp] theorem zeroCore_flags : (zeroCore c d).flags = d.flags := rfl
@[simp] theorem zeroCore_chans : (zeroCore c d).chans = d.chans := rfl
@[simp] theorem zeroCore_dvRr : (zeroCore c d).dvRr = d.dvRr := rfl
@[simp] theorem zeroCore_planers : (zeroCore c d).planers = d.planers := rfl
@[simp] theorem zeroCore_ctxs : (zeroCore c d).ctxs = d.ctxs := rfl
@[simp] theorem zeroCore_hostp : (zeroCore c d).hostp = d.hostp := rfl
@[simp] theorem zeroCore_err : (zeroCore c d).err = d.err := rfl
@[simp] theorem zeroCore_attn : (zeroCore c d).attn = d.attn := rfl
@[simp] theorem zeroCore_kz : (zeroCore c d).kz = d.kz := rfl
@[simp] theorem zeroCore_pier : (zeroCore c d).pier = d.pier := rfl
@[simp] theorem zeroCore_spdm : (zeroCore c d).spdm = d.spdm := rfl
@[simp] theorem zeroCore_resets : (zeroCore c d).resets = d.resets := rfl
@[simp] theorem zeroCore_xcache : (zeroCore c d).xcache = d.xcache := rfl
@[simp] theorem zeroCore_ctxDirty : (zeroCore c d).ctxDirty = d.ctxDirty := rfl
@[simp] theorem zeroCore_fcache : (zeroCore c d).fcache = d.fcache := rfl
@[simp] theorem zeroCore_late : (zeroCore c d).late = d.late := rfl
@[simp] theorem zeroCore_free : (zeroCore c d).free = d.free := rfl

end

/-! ### zeroVx -/

section

variable (c : Nat) (d : Dev)

@[simp] theorem zeroVx_pwr : (zeroVx c d).pwr = d.pwr := rfl
@[simp] theorem zeroVx_kt : (zeroVx c d).kt = d.kt := rfl
@[simp] theorem zeroVx_flash : (zeroVx c d).flash = d.flash := rfl
@[simp] theorem zeroVx_run : (zeroVx c d).run = d.run := rfl
@[simp] theorem zeroVx_ports : (zeroVx c d).ports = d.ports := rfl
@[simp] theorem zeroVx_tab : (zeroVx c d).tab = d.tab := rfl
@[simp] theorem zeroVx_fab : (zeroVx c d).fab = d.fab := rfl
@[simp] theorem zeroVx_hbmc : (zeroVx c d).hbmc = d.hbmc := rfl
@[simp] theorem zeroVx_deck : (zeroVx c d).deck = d.deck := rfl
@[simp] theorem zeroVx_glues : (zeroVx c d).glues = d.glues := rfl
@[simp] theorem zeroVx_hbm : (zeroVx c d).hbm = d.hbm := rfl
@[simp] theorem zeroVx_hbmPoison : (zeroVx c d).hbmPoison = d.hbmPoison := rfl
@[simp] theorem zeroVx_host : (zeroVx c d).host = d.host := rfl
@[simp] theorem zeroVx_hostPoison : (zeroVx c d).hostPoison = d.hostPoison := rfl
@[simp] theorem zeroVx_bench : (zeroVx c d).bench = d.bench := rfl
@[simp] theorem zeroVx_benchPoison : (zeroVx c d).benchPoison = d.benchPoison := rfl
@[simp] theorem zeroVx_joist : (zeroVx c d).joist = d.joist := rfl
@[simp] theorem zeroVx_cores : (zeroVx c d).cores = d.cores := rfl
@[simp] theorem zeroVx_queues : (zeroVx c d).queues = d.queues := rfl
@[simp] theorem zeroVx_parts : (zeroVx c d).parts = d.parts := rfl
@[simp] theorem zeroVx_shadow : (zeroVx c d).shadow = d.shadow := rfl
@[simp] theorem zeroVx_flagVc : (zeroVx c d).flagVc = d.flagVc := rfl
@[simp] theorem zeroVx_saved : (zeroVx c d).saved = d.saved := rfl
@[simp] theorem zeroVx_flags : (zeroVx c d).flags = d.flags := rfl
@[simp] theorem zeroVx_chans : (zeroVx c d).chans = d.chans := rfl
@[simp] theorem zeroVx_dvRr : (zeroVx c d).dvRr = d.dvRr := rfl
@[simp] theorem zeroVx_planers : (zeroVx c d).planers = d.planers := rfl
@[simp] theorem zeroVx_ctxs : (zeroVx c d).ctxs = d.ctxs := rfl
@[simp] theorem zeroVx_hostp : (zeroVx c d).hostp = d.hostp := rfl
@[simp] theorem zeroVx_err : (zeroVx c d).err = d.err := rfl
@[simp] theorem zeroVx_attn : (zeroVx c d).attn = d.attn := rfl
@[simp] theorem zeroVx_kz : (zeroVx c d).kz = d.kz := rfl
@[simp] theorem zeroVx_pier : (zeroVx c d).pier = d.pier := rfl
@[simp] theorem zeroVx_spdm : (zeroVx c d).spdm = d.spdm := rfl
@[simp] theorem zeroVx_resets : (zeroVx c d).resets = d.resets := rfl
@[simp] theorem zeroVx_xcache : (zeroVx c d).xcache = d.xcache := rfl
@[simp] theorem zeroVx_ctxDirty : (zeroVx c d).ctxDirty = d.ctxDirty := rfl
@[simp] theorem zeroVx_fcache : (zeroVx c d).fcache = d.fcache := rfl
@[simp] theorem zeroVx_late : (zeroVx c d).late = d.late := rfl
@[simp] theorem zeroVx_free : (zeroVx c d).free = d.free := rfl

end

/-! ### discardWrite -/

section

variable (pa : Nat) (d : Dev)

@[simp] theorem discardWrite_pwr : (discardWrite pa d).pwr = d.pwr := rfl
@[simp] theorem discardWrite_kt : (discardWrite pa d).kt = d.kt := rfl
@[simp] theorem discardWrite_flash : (discardWrite pa d).flash = d.flash := rfl
@[simp] theorem discardWrite_run : (discardWrite pa d).run = d.run := rfl
@[simp] theorem discardWrite_ports : (discardWrite pa d).ports = d.ports := rfl
@[simp] theorem discardWrite_tab : (discardWrite pa d).tab = d.tab := rfl
@[simp] theorem discardWrite_fab : (discardWrite pa d).fab = d.fab := rfl
@[simp] theorem discardWrite_deck : (discardWrite pa d).deck = d.deck := rfl
@[simp] theorem discardWrite_glues : (discardWrite pa d).glues = d.glues := rfl
@[simp] theorem discardWrite_hbm : (discardWrite pa d).hbm = d.hbm := rfl
@[simp] theorem discardWrite_hbmPoison : (discardWrite pa d).hbmPoison = d.hbmPoison := rfl
@[simp] theorem discardWrite_host : (discardWrite pa d).host = d.host := rfl
@[simp] theorem discardWrite_hostPoison : (discardWrite pa d).hostPoison = d.hostPoison := rfl
@[simp] theorem discardWrite_bench : (discardWrite pa d).bench = d.bench := rfl
@[simp] theorem discardWrite_benchPoison : (discardWrite pa d).benchPoison = d.benchPoison := rfl
@[simp] theorem discardWrite_joist : (discardWrite pa d).joist = d.joist := rfl
@[simp] theorem discardWrite_vx : (discardWrite pa d).vx = d.vx := rfl
@[simp] theorem discardWrite_cores : (discardWrite pa d).cores = d.cores := rfl
@[simp] theorem discardWrite_queues : (discardWrite pa d).queues = d.queues := rfl
@[simp] theorem discardWrite_parts : (discardWrite pa d).parts = d.parts := rfl
@[simp] theorem discardWrite_shadow : (discardWrite pa d).shadow = d.shadow := rfl
@[simp] theorem discardWrite_flagVc : (discardWrite pa d).flagVc = d.flagVc := rfl
@[simp] theorem discardWrite_saved : (discardWrite pa d).saved = d.saved := rfl
@[simp] theorem discardWrite_flags : (discardWrite pa d).flags = d.flags := rfl
@[simp] theorem discardWrite_chans : (discardWrite pa d).chans = d.chans := rfl
@[simp] theorem discardWrite_dvRr : (discardWrite pa d).dvRr = d.dvRr := rfl
@[simp] theorem discardWrite_planers : (discardWrite pa d).planers = d.planers := rfl
@[simp] theorem discardWrite_ctxs : (discardWrite pa d).ctxs = d.ctxs := rfl
@[simp] theorem discardWrite_hostp : (discardWrite pa d).hostp = d.hostp := rfl
@[simp] theorem discardWrite_err : (discardWrite pa d).err = d.err := rfl
@[simp] theorem discardWrite_attn : (discardWrite pa d).attn = d.attn := rfl
@[simp] theorem discardWrite_kz : (discardWrite pa d).kz = d.kz := rfl
@[simp] theorem discardWrite_pier : (discardWrite pa d).pier = d.pier := rfl
@[simp] theorem discardWrite_spdm : (discardWrite pa d).spdm = d.spdm := rfl
@[simp] theorem discardWrite_resets : (discardWrite pa d).resets = d.resets := rfl
@[simp] theorem discardWrite_xcache : (discardWrite pa d).xcache = d.xcache := rfl
@[simp] theorem discardWrite_ctxDirty : (discardWrite pa d).ctxDirty = d.ctxDirty := rfl
@[simp] theorem discardWrite_fcache : (discardWrite pa d).fcache = d.fcache := rfl
@[simp] theorem discardWrite_late : (discardWrite pa d).late = d.late := rfl
@[simp] theorem discardWrite_free : (discardWrite pa d).free = d.free := rfl

end

/-! ### deckMod -/

section

variable (host : Bool) (line : Nat) (f : DeckLine → DeckLine) (d : Dev)

@[simp] theorem deckMod_pwr : (deckMod host line f d).pwr = d.pwr := rfl
@[simp] theorem deckMod_kt : (deckMod host line f d).kt = d.kt := rfl
@[simp] theorem deckMod_flash : (deckMod host line f d).flash = d.flash := rfl
@[simp] theorem deckMod_run : (deckMod host line f d).run = d.run := rfl
@[simp] theorem deckMod_ports : (deckMod host line f d).ports = d.ports := rfl
@[simp] theorem deckMod_tab : (deckMod host line f d).tab = d.tab := rfl
@[simp] theorem deckMod_fab : (deckMod host line f d).fab = d.fab := rfl
@[simp] theorem deckMod_glues : (deckMod host line f d).glues = d.glues := rfl
@[simp] theorem deckMod_hbm : (deckMod host line f d).hbm = d.hbm := rfl
@[simp] theorem deckMod_hbmPoison : (deckMod host line f d).hbmPoison = d.hbmPoison := rfl
@[simp] theorem deckMod_host : (deckMod host line f d).host = d.host := rfl
@[simp] theorem deckMod_hostPoison : (deckMod host line f d).hostPoison = d.hostPoison := rfl
@[simp] theorem deckMod_bench : (deckMod host line f d).bench = d.bench := rfl
@[simp] theorem deckMod_benchPoison : (deckMod host line f d).benchPoison = d.benchPoison := rfl
@[simp] theorem deckMod_joist : (deckMod host line f d).joist = d.joist := rfl
@[simp] theorem deckMod_vx : (deckMod host line f d).vx = d.vx := rfl
@[simp] theorem deckMod_cores : (deckMod host line f d).cores = d.cores := rfl
@[simp] theorem deckMod_queues : (deckMod host line f d).queues = d.queues := rfl
@[simp] theorem deckMod_parts : (deckMod host line f d).parts = d.parts := rfl
@[simp] theorem deckMod_shadow : (deckMod host line f d).shadow = d.shadow := rfl
@[simp] theorem deckMod_flagVc : (deckMod host line f d).flagVc = d.flagVc := rfl
@[simp] theorem deckMod_saved : (deckMod host line f d).saved = d.saved := rfl
@[simp] theorem deckMod_flags : (deckMod host line f d).flags = d.flags := rfl
@[simp] theorem deckMod_chans : (deckMod host line f d).chans = d.chans := rfl
@[simp] theorem deckMod_dvRr : (deckMod host line f d).dvRr = d.dvRr := rfl
@[simp] theorem deckMod_planers : (deckMod host line f d).planers = d.planers := rfl
@[simp] theorem deckMod_ctxs : (deckMod host line f d).ctxs = d.ctxs := rfl
@[simp] theorem deckMod_hostp : (deckMod host line f d).hostp = d.hostp := rfl
@[simp] theorem deckMod_err : (deckMod host line f d).err = d.err := rfl
@[simp] theorem deckMod_attn : (deckMod host line f d).attn = d.attn := rfl
@[simp] theorem deckMod_kz : (deckMod host line f d).kz = d.kz := rfl
@[simp] theorem deckMod_pier : (deckMod host line f d).pier = d.pier := rfl
@[simp] theorem deckMod_spdm : (deckMod host line f d).spdm = d.spdm := rfl
@[simp] theorem deckMod_resets : (deckMod host line f d).resets = d.resets := rfl
@[simp] theorem deckMod_xcache : (deckMod host line f d).xcache = d.xcache := rfl
@[simp] theorem deckMod_ctxDirty : (deckMod host line f d).ctxDirty = d.ctxDirty := rfl
@[simp] theorem deckMod_fcache : (deckMod host line f d).fcache = d.fcache := rfl
@[simp] theorem deckMod_late : (deckMod host line f d).late = d.late := rfl
@[simp] theorem deckMod_free : (deckMod host line f d).free = d.free := rfl
@[simp] theorem deckMod_hbmc : (deckMod host line f d).hbmc = d.hbmc := rfl
@[simp] theorem deckMod_retired : (deckMod host line f d).deck.retired = d.deck.retired := rfl

end

/-! ### deckDrop -/

section

variable (host : Bool) (line : Nat) (d : Dev)

@[simp] theorem deckDrop_pwr : (deckDrop host line d).pwr = d.pwr := rfl
@[simp] theorem deckDrop_kt : (deckDrop host line d).kt = d.kt := rfl
@[simp] theorem deckDrop_flash : (deckDrop host line d).flash = d.flash := rfl
@[simp] theorem deckDrop_run : (deckDrop host line d).run = d.run := rfl
@[simp] theorem deckDrop_ports : (deckDrop host line d).ports = d.ports := rfl
@[simp] theorem deckDrop_tab : (deckDrop host line d).tab = d.tab := rfl
@[simp] theorem deckDrop_fab : (deckDrop host line d).fab = d.fab := rfl
@[simp] theorem deckDrop_glues : (deckDrop host line d).glues = d.glues := rfl
@[simp] theorem deckDrop_hbm : (deckDrop host line d).hbm = d.hbm := rfl
@[simp] theorem deckDrop_hbmPoison : (deckDrop host line d).hbmPoison = d.hbmPoison := rfl
@[simp] theorem deckDrop_host : (deckDrop host line d).host = d.host := rfl
@[simp] theorem deckDrop_hostPoison : (deckDrop host line d).hostPoison = d.hostPoison := rfl
@[simp] theorem deckDrop_bench : (deckDrop host line d).bench = d.bench := rfl
@[simp] theorem deckDrop_benchPoison : (deckDrop host line d).benchPoison = d.benchPoison := rfl
@[simp] theorem deckDrop_joist : (deckDrop host line d).joist = d.joist := rfl
@[simp] theorem deckDrop_vx : (deckDrop host line d).vx = d.vx := rfl
@[simp] theorem deckDrop_cores : (deckDrop host line d).cores = d.cores := rfl
@[simp] theorem deckDrop_queues : (deckDrop host line d).queues = d.queues := rfl
@[simp] theorem deckDrop_parts : (deckDrop host line d).parts = d.parts := rfl
@[simp] theorem deckDrop_shadow : (deckDrop host line d).shadow = d.shadow := rfl
@[simp] theorem deckDrop_flagVc : (deckDrop host line d).flagVc = d.flagVc := rfl
@[simp] theorem deckDrop_saved : (deckDrop host line d).saved = d.saved := rfl
@[simp] theorem deckDrop_flags : (deckDrop host line d).flags = d.flags := rfl
@[simp] theorem deckDrop_chans : (deckDrop host line d).chans = d.chans := rfl
@[simp] theorem deckDrop_dvRr : (deckDrop host line d).dvRr = d.dvRr := rfl
@[simp] theorem deckDrop_planers : (deckDrop host line d).planers = d.planers := rfl
@[simp] theorem deckDrop_ctxs : (deckDrop host line d).ctxs = d.ctxs := rfl
@[simp] theorem deckDrop_hostp : (deckDrop host line d).hostp = d.hostp := rfl
@[simp] theorem deckDrop_err : (deckDrop host line d).err = d.err := rfl
@[simp] theorem deckDrop_attn : (deckDrop host line d).attn = d.attn := rfl
@[simp] theorem deckDrop_kz : (deckDrop host line d).kz = d.kz := rfl
@[simp] theorem deckDrop_pier : (deckDrop host line d).pier = d.pier := rfl
@[simp] theorem deckDrop_spdm : (deckDrop host line d).spdm = d.spdm := rfl
@[simp] theorem deckDrop_resets : (deckDrop host line d).resets = d.resets := rfl
@[simp] theorem deckDrop_xcache : (deckDrop host line d).xcache = d.xcache := rfl
@[simp] theorem deckDrop_ctxDirty : (deckDrop host line d).ctxDirty = d.ctxDirty := rfl
@[simp] theorem deckDrop_fcache : (deckDrop host line d).fcache = d.fcache := rfl
@[simp] theorem deckDrop_late : (deckDrop host line d).late = d.late := rfl
@[simp] theorem deckDrop_free : (deckDrop host line d).free = d.free := rfl
@[simp] theorem deckDrop_hbmc : (deckDrop host line d).hbmc = d.hbmc := rfl
@[simp] theorem deckDrop_retired : (deckDrop host line d).deck.retired = d.deck.retired := rfl

end

/-! ### deckTouch -/

section

variable (host : Bool) (line : Nat) (dirty : Bool) (d : Dev)

@[simp] theorem deckTouch_pwr : (deckTouch host line dirty d).pwr = d.pwr := rfl
@[simp] theorem deckTouch_kt : (deckTouch host line dirty d).kt = d.kt := rfl
@[simp] theorem deckTouch_flash : (deckTouch host line dirty d).flash = d.flash := rfl
@[simp] theorem deckTouch_run : (deckTouch host line dirty d).run = d.run := rfl
@[simp] theorem deckTouch_ports : (deckTouch host line dirty d).ports = d.ports := rfl
@[simp] theorem deckTouch_tab : (deckTouch host line dirty d).tab = d.tab := rfl
@[simp] theorem deckTouch_fab : (deckTouch host line dirty d).fab = d.fab := rfl
@[simp] theorem deckTouch_glues : (deckTouch host line dirty d).glues = d.glues := rfl
@[simp] theorem deckTouch_hbm : (deckTouch host line dirty d).hbm = d.hbm := rfl
@[simp] theorem deckTouch_hbmPoison : (deckTouch host line dirty d).hbmPoison = d.hbmPoison := rfl
@[simp] theorem deckTouch_host : (deckTouch host line dirty d).host = d.host := rfl
@[simp] theorem deckTouch_hostPoison : (deckTouch host line dirty d).hostPoison = d.hostPoison := rfl
@[simp] theorem deckTouch_bench : (deckTouch host line dirty d).bench = d.bench := rfl
@[simp] theorem deckTouch_benchPoison : (deckTouch host line dirty d).benchPoison = d.benchPoison := rfl
@[simp] theorem deckTouch_joist : (deckTouch host line dirty d).joist = d.joist := rfl
@[simp] theorem deckTouch_vx : (deckTouch host line dirty d).vx = d.vx := rfl
@[simp] theorem deckTouch_cores : (deckTouch host line dirty d).cores = d.cores := rfl
@[simp] theorem deckTouch_queues : (deckTouch host line dirty d).queues = d.queues := rfl
@[simp] theorem deckTouch_parts : (deckTouch host line dirty d).parts = d.parts := rfl
@[simp] theorem deckTouch_shadow : (deckTouch host line dirty d).shadow = d.shadow := rfl
@[simp] theorem deckTouch_flagVc : (deckTouch host line dirty d).flagVc = d.flagVc := rfl
@[simp] theorem deckTouch_saved : (deckTouch host line dirty d).saved = d.saved := rfl
@[simp] theorem deckTouch_flags : (deckTouch host line dirty d).flags = d.flags := rfl
@[simp] theorem deckTouch_chans : (deckTouch host line dirty d).chans = d.chans := rfl
@[simp] theorem deckTouch_dvRr : (deckTouch host line dirty d).dvRr = d.dvRr := rfl
@[simp] theorem deckTouch_planers : (deckTouch host line dirty d).planers = d.planers := rfl
@[simp] theorem deckTouch_ctxs : (deckTouch host line dirty d).ctxs = d.ctxs := rfl
@[simp] theorem deckTouch_hostp : (deckTouch host line dirty d).hostp = d.hostp := rfl
@[simp] theorem deckTouch_err : (deckTouch host line dirty d).err = d.err := rfl
@[simp] theorem deckTouch_attn : (deckTouch host line dirty d).attn = d.attn := rfl
@[simp] theorem deckTouch_kz : (deckTouch host line dirty d).kz = d.kz := rfl
@[simp] theorem deckTouch_pier : (deckTouch host line dirty d).pier = d.pier := rfl
@[simp] theorem deckTouch_spdm : (deckTouch host line dirty d).spdm = d.spdm := rfl
@[simp] theorem deckTouch_resets : (deckTouch host line dirty d).resets = d.resets := rfl
@[simp] theorem deckTouch_xcache : (deckTouch host line dirty d).xcache = d.xcache := rfl
@[simp] theorem deckTouch_ctxDirty : (deckTouch host line dirty d).ctxDirty = d.ctxDirty := rfl
@[simp] theorem deckTouch_fcache : (deckTouch host line dirty d).fcache = d.fcache := rfl
@[simp] theorem deckTouch_late : (deckTouch host line dirty d).late = d.late := rfl
@[simp] theorem deckTouch_free : (deckTouch host line dirty d).free = d.free := rfl
@[simp] theorem deckTouch_hbmc : (deckTouch host line dirty d).hbmc = d.hbmc := rfl
@[simp] theorem deckTouch_retired : (deckTouch host line dirty d).deck.retired = d.deck.retired := rfl

end

/-! ### Reading an updated unit -/

theorem coreAt_modCore (c x : Nat) (f : Core → Core) (d : Dev) (h : mapOk {} d.cores = true) :
    coreAt (modCore c f d) x = if x = c then f (coreAt d c) else coreAt d x := mapGet_mapPut _ _ _ _ _ h

theorem coreAt_modCore_ne (c x : Nat) (f : Core → Core) (d : Dev) (h : x ≠ c) : coreAt (modCore c f d) x = coreAt d x :=
  mapGet_mapPut_ne _ _ _ _ _ h

theorem coreAt_modCore_self (c : Nat) (f : Core → Core) (d : Dev) (h : f (coreAt d c) ≠ {}) :
    coreAt (modCore c f d) c = f (coreAt d c) := mapGet_mapPut_self _ _ _ _ h

theorem ctxAt_modCtx (c x : Nat) (f : Ctx → Ctx) (d : Dev) (h : mapOk {} d.ctxs = true) :
    ctxAt (modCtx c f d) x = if x = c then f (ctxAt d c) else ctxAt d x := mapGet_mapPut _ _ _ _ _ h

theorem ctxAt_modCtx_ne (c x : Nat) (f : Ctx → Ctx) (d : Dev) (h : x ≠ c) : ctxAt (modCtx c f d) x = ctxAt d x :=
  mapGet_mapPut_ne _ _ _ _ _ h

theorem ctxAt_modCtx_self (c : Nat) (f : Ctx → Ctx) (d : Dev) (h : f (ctxAt d c) ≠ {}) :
    ctxAt (modCtx c f d) c = f (ctxAt d c) := mapGet_mapPut_self _ _ _ _ h

theorem pflagAt_modPflag (c x : Nat) (f : PFlag → PFlag) (d : Dev) (h : mapOk {} d.flags = true) :
    pflagAt (modPflag c f d) x = if x = c then f (pflagAt d c) else pflagAt d x := mapGet_mapPut _ _ _ _ _ h

theorem pflagAt_modPflag_ne (c x : Nat) (f : PFlag → PFlag) (d : Dev) (h : x ≠ c) : pflagAt (modPflag c f d) x = pflagAt d x :=
  mapGet_mapPut_ne _ _ _ _ _ h

theorem pflagAt_modPflag_self (c : Nat) (f : PFlag → PFlag) (d : Dev) (h : f (pflagAt d c) ≠ {}) :
    pflagAt (modPflag c f d) c = f (pflagAt d c) := mapGet_mapPut_self _ _ _ _ h

theorem chanAt_modChan (c x : Nat) (f : Chan → Chan) (d : Dev) (h : mapOk {} d.chans = true) :
    chanAt (modChan c f d) x = if x = c then f (chanAt d c) else chanAt d x := mapGet_mapPut _ _ _ _ _ h

theorem chanAt_modChan_ne (c x : Nat) (f : Chan → Chan) (d : Dev) (h : x ≠ c) : chanAt (modChan c f d) x = chanAt d x :=
  mapGet_mapPut_ne _ _ _ _ _ h

theorem chanAt_modChan_self (c : Nat) (f : Chan → Chan) (d : Dev) (h : f (chanAt d c) ≠ {}) :
    chanAt (modChan c f d) c = f (chanAt d c) := mapGet_mapPut_self _ _ _ _ h

theorem portAt_modPort (c x : Nat) (f : Port → Port) (d : Dev) (h : mapOk {} d.ports = true) :
    portAt (modPort c f d) x = if x = c then f (portAt d c) else portAt d x := mapGet_mapPut _ _ _ _ _ h

theorem portAt_modPort_ne (c x : Nat) (f : Port → Port) (d : Dev) (h : x ≠ c) : portAt (modPort c f d) x = portAt d x :=
  mapGet_mapPut_ne _ _ _ _ _ h

theorem portAt_modPort_self (c : Nat) (f : Port → Port) (d : Dev) (h : f (portAt d c) ≠ {}) :
    portAt (modPort c f d) c = f (portAt d c) := mapGet_mapPut_self _ _ _ _ h

theorem queueAt_modQueue (c q x y : Nat) (f : QueueSt → QueueSt) (d : Dev) (h : mapOk {} d.queues = true) :
    queueAt (modQueue c q f d) x y = if 4 * x + y = 4 * c + q then f (queueAt d c q) else queueAt d x y :=
  mapGet_mapPut _ _ _ _ _ h

theorem queueAt_modQueue_ne (c q x y : Nat) (f : QueueSt → QueueSt) (d : Dev) (h : 4 * x + y ≠ 4 * c + q) :
    queueAt (modQueue c q f d) x y = queueAt d x y := mapGet_mapPut_ne _ _ _ _ _ h

theorem queueAt_modQueue_self (c q : Nat) (f : QueueSt → QueueSt) (d : Dev) (h : f (queueAt d c q) ≠ {}) :
    queueAt (modQueue c q f d) c q = f (queueAt d c q) := mapGet_mapPut_self _ _ _ _ h

theorem ringAt_modRing_ne (r x : Nat) (f : Ring → Ring) (d : Dev) (h : x ≠ r) :
    ringAt (modRing r f d) x = ringAt d x := mapGet_mapPut_ne _ _ _ _ _ h

theorem ringAt_modRing_self (r : Nat) (f : Ring → Ring) (d : Dev) (h : f (ringAt d r) ≠ {}) :
    ringAt (modRing r f d) r = f (ringAt d r) := mapGet_mapPut_self _ _ _ _ h

/-- The row written is read, and every other row as before. -/
theorem jrow_setJrow (c r x y : Nat) (w : JRow) (d : Dev) (h : mapOk {} d.joist = true) :
    jrow (setJrow c r w d) x y = if x * 1024 + y = c * 1024 + r then w else jrow d x y := mapGet_mapPut _ _ _ _ _ h

/-- Bytes of a bench beside a store are as before. -/
theorem benchRead_benchWrite_other (c a x n : Nat) (bs : List Byte) (d : Dev) (h : x + n ≤ a ∨ a + bs.length ≤ x) :
    benchRead (benchWrite c a bs d) c x n = benchRead d c x n :=
  memRead_memWrite_other _ _ _ _ _ (by unfold benchKey; omega)

/-- The bytes stored in a bench are read. -/
theorem benchRead_benchWrite (c a : Nat) (bs : List Byte) (d : Dev) (h : memOk d.bench = true) :
    benchRead (benchWrite c a bs d) c a bs.length = bs := memRead_memWrite _ _ _ h

end Sys2Proof.Machine
end

