-- ==== Sys2Proof/Laws/Frames.lean ====
section
/-!
SUPPORT. What each shared operation over memories and records can do, said once: an operation that stores, translates,
poisons or records leaves everything of the module but memories and the decks' lines, records, attention, the HBM
controllers' counts, open glue-ups, cached translations, the capture's counters and the free counter.
-/

namespace Sys2Proof.Machine

/-- All of the module but its memories and decks' lines, records, attention bits, HBM controllers, open glue-ups, cached
translations, capture counters, contexts' late record writes and the free counter is the same. -/
structure Kept (d e : Dev) : Prop where
  pwr : e.pwr = d.pwr
  kt : e.kt = d.kt
  flash : e.flash = d.flash
  run : e.run = d.run
  ports : e.ports = d.ports
  tab : e.tab = d.tab
  fab : e.fab = d.fab
  retired : e.deck.retired = d.deck.retired
  cores : e.cores = d.cores
  queues : e.queues = d.queues
  parts : e.parts = d.parts
  shadow : e.shadow = d.shadow
  flagVc : e.flagVc = d.flagVc
  saved : e.saved = d.saved
  flags : e.flags = d.flags
  chans : e.chans = d.chans
  dvRr : e.dvRr = d.dvRr
  planers : e.planers = d.planers
  ctxs : e.ctxs = d.ctxs
  hostp : e.hostp = d.hostp
  capture : e.kz.en = d.kz.en
  late : e.late = d.late
  pier : e.pier = d.pier
  spdm : e.spdm = d.spdm
  resets : e.resets = d.resets

theorem Kept.refl (d : Dev) : Kept d d := by constructor <;> rfl

theorem Kept.trans {a b c : Dev} (x : Kept a b) (y : Kept b c) : Kept a c := by
  constructor
  · exact y.pwr.trans x.pwr
  · exact y.kt.trans x.kt
  · exact y.flash.trans x.flash
  · exact y.run.trans x.run
  · exact y.ports.trans x.ports
  · exact y.tab.trans x.tab
  · exact y.fab.trans x.fab
  · exact y.retired.trans x.retired
  · exact y.cores.trans x.cores
  · exact y.queues.trans x.queues
  · exact y.parts.trans x.parts
  · exact y.shadow.trans x.shadow
  · exact y.flagVc.trans x.flagVc
  · exact y.saved.trans x.saved
  · exact y.flags.trans x.flags
  · exact y.chans.trans x.chans
  · exact y.dvRr.trans x.dvRr
  · exact y.planers.trans x.planers
  · exact y.ctxs.trans x.ctxs
  · exact y.hostp.trans x.hostp
  · exact y.capture.trans x.capture
  · exact y.late.trans x.late
  · exact y.pier.trans x.pier
  · exact y.spdm.trans x.spdm
  · exact y.resets.trans x.resets

theorem Kept.foldl {α : Type} {f : Dev → α → Dev} (h : ∀ d x, Kept d (f d x)) (l : List α) (d : Dev) :
    Kept d (l.foldl f d) := by
  induction l generalizing d with
  | nil => exact Kept.refl d
  | cons x l ih => exact (h d x).trans (ih _)

theorem Kept.ite {p : Prop} [Decidable p] {d a b : Dev} (x : Kept d a) (y : Kept d b) : Kept d (if p then a else b) := by
  split
  · exact x
  · exact y

/-! ### Records and attention -/

theorem attnSet_kept (i : Nat) (d : Dev) : Kept d (attnSet i d) := by
  unfold attnSet
  simp only []
  split <;> constructor <;> rfl

theorem raiseRec_kept (r : ErrRec) (d : Dev) : Kept d (raiseRec r d) :=
  (show Kept d { d with err := { d.err with raised := d.err.raised ++ [{ r with kt := nowNs d % 2 ^ 64 }] } } by
    constructor <;> rfl).trans (Kept.foldl (fun d i => attnSet_kept i d) _ _)

theorem raise_kept (cls unit : Nat) (ctx : Option Nat) (addr detail : Nat) (d : Dev) :
    Kept d (raise cls unit ctx addr detail d) := raiseRec_kept _ d

theorem raiseFields_kept (cls unit : Nat) (ctx : Option Nat) (fields : List (Nat × Nat)) (d : Dev) :
    Kept d (raiseFields cls unit ctx fields d) := raiseRec_kept _ d

/-! ### Decks -/

theorem storeRaw_kept (host : Bool) (pa : Nat) (bs : List Byte) (d : Dev) : Kept d (storeRaw host pa bs d) := by
  unfold storeRaw
  split <;> constructor <;> rfl

theorem markMem_kept (host : Bool) (line : Nat) (po : Bool) (d : Dev) : Kept d (markMem host line po d) := by
  unfold markMem
  split <;> constructor <;> rfl

theorem hostCleaned_kept (line : Nat) (d : Dev) : Kept d (hostCleaned line d) := by
  have k : Kept d { d with free := d.free + 1 } := by constructor <;> rfl
  exact Kept.ite (Kept.ite (k.trans (markMem_kept _ _ _ _)) k) (Kept.refl d)

theorem deckMod_kept (host : Bool) (line : Nat) (f : DeckLine → DeckLine) (d : Dev) : Kept d (deckMod host line f d) := by
  constructor <;> rfl

theorem deckDrop_kept (host : Bool) (line : Nat) (d : Dev) : Kept d (deckDrop host line d) := by constructor <;> rfl

theorem discardWrite_kept (pa : Nat) (d : Dev) : Kept d (discardWrite pa d) := by constructor <;> rfl

theorem showUnder_kept (v : DeckLine) (d : Dev) : Kept d (showUnder v d) := by
  unfold showUnder
  split
  · exact storeRaw_kept _ _ _ d
  · exact Kept.refl d

theorem lineBack_kept (v : DeckLine) (d : Dev) : Kept d (lineBack v d) :=
  Kept.ite (showUnder_kept v d)
    (Kept.ite
      (Kept.ite (Kept.ite (markMem_kept _ _ _ d) (hostCleaned_kept _ d))
        ((showUnder_kept v d).trans (raise_kept _ _ _ _ _ _)))
      (Kept.ite (discardWrite_kept _ d) (markMem_kept _ _ _ d)))

theorem deckEvict_kept (v : DeckLine) (d : Dev) : Kept d (deckEvict v d) :=
  (deckDrop_kept _ _ d).trans (lineBack_kept v _)

theorem deckTake_kept (host : Bool) (line : Nat) (whole : Bool) (d : Dev) : Kept d (deckTake host line whole d) := by
  have t : Kept d (deckTouch host line false d) := by constructor <;> rfl
  have f : ∀ e po, Kept e (deckFilled host line po e) := fun e po => by constructor <;> rfl
  unfold deckTake
  refine Kept.ite t (Kept.ite (Kept.refl d) ?_)
  split
  · exact Kept.refl d
  next v _ =>
    cases v with
    | none => exact f d _
    | some v => exact (deckEvict_kept v d).trans (f _ _)

theorem deckTakeAll_kept (host : Bool) (ls : List Nat) (d : Dev) : Kept d (deckTakeAll host ls d) :=
  Kept.foldl (fun d l => deckTake_kept host l false d) ls d

theorem plainAccess_kept (lines : List Nat) (d : Dev) : Kept d (plainAccess lines d) := by
  unfold plainAccess
  split <;> constructor <;> rfl

/-- A read at its home decks changes no unit but them and the glue-ups that it meets. -/
theorem deckRead_kept (host : Bool) (pa n : Nat) (d : Dev) : Kept d (deckRead host pa n d) :=
  (Kept.ite (Kept.refl d) (plainAccess_kept _ d)).trans (deckTakeAll_kept _ _ _)

/-! ### Memories -/

theorem poisonLine_kept (host : Bool) (line : Nat) (d : Dev) : Kept d (poisonLine host line d) :=
  Kept.ite (deckMod_kept _ _ _ d) (markMem_kept _ _ _ d)

theorem cleanLine_kept (host : Bool) (line : Nat) (d : Dev) : Kept d (cleanLine host line d) :=
  Kept.ite (deckMod_kept _ _ _ d) (Kept.ite (hostCleaned_kept _ d) (markMem_kept _ _ _ d))

theorem deckDirty_kept (host : Bool) (line : Nat) (d : Dev) : Kept d (deckDirty host line d) := by
  unfold deckDirty
  split
  · exact Kept.ite (Kept.refl d) (deckMod_kept _ _ _ d)
  · exact Kept.refl d

theorem writeInLine_kept (host : Bool) (pa : Nat) (bs : List Byte) (d : Dev) : Kept d (writeInLine host pa bs d) := by
  have key : Kept d (storeRaw host pa bs (deckDirty host (lineOf pa) (deckTake host (lineOf pa) (bs.length == 64) d))) :=
    ((deckTake_kept _ _ _ d).trans (deckDirty_kept _ _ _)).trans (storeRaw_kept _ _ _ _)
  exact Kept.ite (Kept.ite (raise_kept _ _ _ _ _ d) (discardWrite_kept _ d))
    (Kept.ite (key.trans (cleanLine_kept _ _ _)) key)

theorem writeMem_kept (host : Bool) (pa : Nat) (bs : List Byte) (d : Dev) : Kept d (writeMem host pa bs d) := by
  have key : ∀ n pa bs d, Kept d (writeMemGo host n pa bs d) := by
    intro n
    induction n with
    | zero => intro pa bs d; exact Kept.refl d
    | succ n ih =>
      intro pa bs d
      simp only [writeMemGo]
      exact Kept.ite (Kept.refl d) ((writeInLine_kept _ _ _ d).trans (ih _ _ _))
  exact key _ _ _ _

theorem benchWrite_kept (core a : Nat) (bs : List Byte) (d : Dev) : Kept d (benchWrite core a bs d) := by
  constructor <;> rfl

theorem benchPoison_kept (core a n : Nat) (d : Dev) : Kept d (benchPoison core a n d) := by
  unfold benchPoison
  split <;> constructor <;> rfl

theorem setJrow_kept (core row : Nat) (r : JRow) (d : Dev) : Kept d (setJrow core row r d) := by constructor <;> rfl

theorem setVxLane_kept (core r lane : Nat) (v : BitVec 32) (d : Dev) : Kept d (setVxLane core r lane v d) := by
  constructor <;> rfl

theorem drawNat_kept (d : Dev) : Kept d (drawNat d).2 := by constructor <;> rfl

theorem drawBytes_kept (n : Nat) (d : Dev) : Kept d (drawBytes n d).2 := by
  induction n generalizing d with
  | zero => exact Kept.refl d
  | succ n ih =>
    have k : Kept d { d with free := d.free + 1 } := by constructor <;> rfl
    exact k.trans (ih _)

theorem meetUpset_kept (core : Nat) (d : Dev) (u : Upset) : Kept d (meetUpset core d u) := by
  cases u with
  | bench a bit double =>
    exact Kept.ite (Kept.refl d) (Kept.ite ((raiseFields_kept _ _ _ _ d).trans (benchPoison_kept _ _ _ _))
      (raiseFields_kept _ _ _ _ d))
  | joist row bit double =>
    exact Kept.ite (Kept.refl d) (Kept.ite ((raiseFields_kept _ _ _ _ d).trans (setJrow_kept _ _ _ _))
      (raiseFields_kept _ _ _ _ d))

theorem meetUpsets_kept (cmd : QCmd) (d : Dev) : Kept d (meetUpsets cmd d) :=
  Kept.foldl (meetUpset_kept cmd.core) _ d

/-! ### Capture -/

theorem hostPutLine_kept (pa : Nat) (bs : List Byte) (po : Bool) (d : Dev) : Kept d (hostPutLine pa bs po d) := by
  have key : ∀ e, Kept e (if po then markMem true (lineOf pa) true e
      else if bs.length = 64 then hostCleaned (lineOf pa) e else e) := fun e =>
    Kept.ite (markMem_kept _ _ _ e) (Kept.ite (hostCleaned_kept _ e) (Kept.refl e))
  have m : ∀ e, Kept e (match deckLine e true (lineOf pa) with
      | some v => deckEvict v e
      | none => e) := fun e => by
    split
    · exact deckEvict_kept _ e
    · exact Kept.refl e
  exact Kept.ite (Kept.ite (raise_kept _ _ _ _ _ d) (discardWrite_kept _ d))
    (((storeRaw_kept _ _ _ d).trans (m _)).trans (key _))

theorem hostPut_kept (pa : Nat) (bs : List Byte) (d : Dev) : Kept d (hostPut pa bs d) := by
  have key : ∀ n pa bs d, Kept d (hostPutGo n pa bs d) := by
    intro n
    induction n with
    | zero => intro pa bs d; exact Kept.refl d
    | succ n ih =>
      intro pa bs d
      simp only [hostPutGo]
      exact Kept.ite (Kept.refl d) ((hostPutLine_kept _ _ _ d).trans (ih _ _ _))
  exact key _ _ _ _

theorem kzPut_kept (typ ctx a b : Nat) (digest : List Byte) (d : Dev) : Kept d (kzPut typ ctx a b digest d) :=
  (hostPut_kept _ _ d).trans (by constructor <;> rfl)

theorem kzRecord_kept (typ ctx a b : Nat) (digest : List Byte) (d : Dev) : Kept d (kzRecord typ ctx a b digest d) := by
  have f : Kept d (kzFlushLost d) :=
    Kept.ite ((kzPut_kept _ _ _ _ _ d).trans (by constructor <;> rfl)) (Kept.refl d)
  exact f.trans (Kept.ite (kzPut_kept _ _ _ _ _ _) (by constructor <;> rfl))

theorem kzHostReads_kept (ctx : Nat) (ls : List Nat) (d : Dev) : Kept d (kzHostReads ctx ls d) :=
  Kept.foldl (fun d _ => Kept.ite (Kept.ite (kzRecord_kept _ _ _ _ _ d) (Kept.refl d)) (Kept.refl d)) ls d

/-! ### Translated accesses -/

theorem cachePut_kept (unit ctx va : Nat) (w : Nat × Nat) (d : Dev) : Kept d (cachePut unit ctx va w d) :=
  (show Kept d { d with xcache := trimCache unit ({ unit := unit, ctx := ctx, page := va / 2 ^ 16, pte := w.1, level := w.2 }
      :: d.xcache.filter (fun x => !(x.unit == unit && x.ctx == ctx && x.page == va / 2 ^ 16))) } by
    constructor <;> rfl).trans (Kept.foldl (fun d pa => deckRead_kept false pa 8 d) _ _)

theorem pickEntry_kept {unit ctx va : Nat} {d e : Dev} {w : Nat × Nat} (h : pickEntry unit ctx va d = .ok (w, e)) :
    Kept d e := by
  have k : Kept d (drawNat d).2 := drawNat_kept d
  unfold pickEntry at h
  split at h
  · split at h
    · cases h
    · cases h
      exact cachePut_kept _ _ _ _ d
  · simp only [] at h
    split at h
    · split at h
      · cases h
        exact Kept.refl d
      · split at h
        · cases h
          exact k
        · cases h
          exact k.trans (cachePut_kept _ _ _ _ _)
    · split at h
      · cases h
        exact Kept.refl d
      · split at h
        · cases h
          exact k
        · cases h
    · cases h
      exact Kept.refl d

theorem xlate_kept {unit ctx : Nat} {wr : Bool} {va : Int} {d e : Dev} {host : Bool} {pa p : Nat}
    (h : xlate unit ctx wr va d = .ok (host, pa, p, e)) : Kept d e := by
  rw [xlate] at h
  generalize (2 : Int) ^ 48 = top at h
  by_cases hr : va < 0 ∨ top ≤ va
  · rw [if_pos hr] at h
    cases h
  · rw [if_neg hr] at h
    cases hp : pickEntry unit ctx va.toNat d with
    | error e => simp only [hp] at h; cases h
    | ok w =>
      simp only [hp] at h
      split at h
      · cases h
      · cases h
        exact pickEntry_kept (w := w.1) (e := w.2) hp

theorem deckVisit_kept {host : Bool} {pa n : Nat} {d e : Dev} (h : deckVisit host pa n d = .ok e) : Kept d e := by
  unfold deckVisit at h
  split at h
  · cases h
  · cases h
    exact deckRead_kept _ _ _ d

theorem deckVisitW_kept {host : Bool} {pa n : Nat} {d e : Dev} (h : deckVisitW host pa n d = .ok e) : Kept d e := by
  unfold deckVisitW at h
  split at h
  · cases h
  · cases h
    exact Kept.ite (Kept.refl d) (plainAccess_kept _ d)

theorem hostReadRec_kept (po : Option Nat) (d : Dev) : Kept d (hostReadRec po d) := by
  cases po with
  | none => exact Kept.refl d
  | some l => exact raise_kept _ _ _ _ _ d

theorem hostReadDone_kept (ctx : Nat) (d0 : Dev) (pa n : Nat) (d : Dev) : Kept d (hostReadDone ctx d0 pa n d) :=
  (kzHostReads_kept _ _ d).trans (hostReadRec_kept _ _)

theorem vReadGo_kept {unit ctx : Nat} : ∀ {fuel : Nat} {va : Int} {n : Nat} {d e : Dev} {bs : List Byte} {po : Bool}
    {rs : List Region}, vReadGo unit ctx fuel va n d = .ok (bs, po, rs, e) → Kept d e := by
  intro fuel
  induction fuel with
  | zero =>
    intro va n d e bs po rs h
    cases h
    exact Kept.refl d
  | succ fuel ih =>
    intro va n d e bs po rs h
    simp only [vReadGo] at h
    split at h
    · cases h
      exact Kept.refl d
    · split at h
      · cases h
      next host pa p d1 hx =>
        split at h
        · cases h
        next d2 hv =>
          split at h
          · cases h
          next bs' po' rs' d3 hr =>
            have k := ((xlate_kept hx).trans (deckVisit_kept hv)).trans (ih hr)
            cases h
            exact Kept.ite (k.trans (hostReadDone_kept _ _ _ _ d3)) k

/-- A read through translation changes no unit. -/
theorem vRead_kept {unit ctx : Nat} {va : Int} {n : Nat} {d e : Dev} {bs : List Byte} {po : Bool}
    (h : vRead unit ctx va n d = .ok (bs, po, e)) : Kept d e := by
  unfold vRead at h
  split at h
  · cases h
  next hr =>
    cases h
    exact vReadGo_kept hr

theorem vTake_kept {unit ctx : Nat} {va : Int} {n : Nat} {d e : Dev} {bs : List Byte}
    (h : vTake unit ctx va n d = .ok (bs, e)) : Kept d e := by
  unfold vTake at h
  split at h
  · cases h
  next bs' po d1 hr =>
    split at h
    · cases h
    · cases h
      exact vRead_kept hr

theorem vWriteGo_kept {unit ctx : Nat} : ∀ {fuel : Nat} {va : Int} {bs : List Byte} {d e : Dev},
    vWriteGo unit ctx fuel va bs d = .ok e → Kept d e := by
  intro fuel
  induction fuel with
  | zero =>
    intro va bs d e h
    cases h
    exact Kept.refl d
  | succ fuel ih =>
    intro va bs d e h
    simp only [vWriteGo] at h
    split at h
    · cases h
      exact Kept.refl d
    · split at h
      · cases h
      next host pa p d1 hx =>
        split at h
        · cases h
        next d2 hv =>
          exact (((xlate_kept hx).trans (deckVisitW_kept hv)).trans
            ((Kept.ite (kzHostReads_kept _ _ d2) (Kept.refl d2)).trans (writeMem_kept _ _ _ _))).trans (ih h)

/-- A store through translation changes no unit. -/
theorem vWrite_kept {unit ctx : Nat} {va : Int} {bs : List Byte} {d e : Dev} (h : vWrite unit ctx va bs d = .ok e) :
    Kept d e := vWriteGo_kept h

/-! ### What a stopped context leaves undefined -/

theorem scrambleRegion_kept (core : Nat) (r : Region) (d : Dev) : Kept d (scrambleRegion core r d) := by
  cases r with
  | mem host pa n => exact (drawBytes_kept n d).trans (writeMem_kept _ _ _ _)
  | bench a n => exact (drawBytes_kept n d).trans (benchWrite_kept _ _ _ _)
  | rows row n =>
    exact Kept.foldl (fun d i => (drawBytes_kept 544 d).trans (setJrow_kept _ _ _ _)) _ _
  | vx r => exact (drawNat_kept d).trans (Kept.foldl (fun d l => setVxLane_kept _ _ _ _ d) _ _)

theorem scrambleFlights_kept (c : Nat) (d : Dev) : Kept d (scrambleFlights c d) := by
  unfold scrambleFlights
  refine Kept.foldl (fun d p => ?_) _ _
  exact Kept.ite (Kept.foldl (fun d f => Kept.foldl (fun d r => scrambleRegion_kept _ r d) _ _) _ _) (Kept.refl d)

theorem syncCtx_kept (c : Nat) (d : Dev) : Kept d (syncCtx c d) :=
  Kept.ite (by constructor <;> rfl)
    (((plainAccess_kept _ d).trans (writeMem_kept _ _ _ _)).trans (writeMem_kept _ _ _ _))

end Sys2Proof.Machine
end

