-- ==== Sys2Proof/Laws/Queue.lean ====
section
/-!
SUPPORT. What the issue of a queue command does, said once: the meanings of queue commands are `runCmd` of a body.
-/

namespace Sys2Proof.Machine

/-- A queue command that starts: its body's answer decides. -/
theorem runCmd_started {cmd : QCmd} {accept : List Nat} {engine glueOk : Bool} {more : List (Nat × Bool)}
    {ops : List Nat} {body : Job → Except Stop Job} {d : Dev} {r : Ready}
    (h : started cmd accept engine glueOk more ops d = some r) :
    runCmd cmd accept engine glueOk more ops body d =
      match body r.job with
      | .error .wait => modQueue cmd.core (queueNo cmd.queue) (fun s => { s with wait := none }) r.dev
      | .error .timed => headWaits cmd.core (queueNo cmd.queue) cmd.tag [] r.dev
      | .error (.atClamp id qmask) => headClamp cmd (queueNo cmd.queue) id qmask r.waits r.dev
      | .error (.err e) => failCmd r.job e r.dev
      | .ok j =>
        if behindOwn j r.keys r.inGlue r.dev then
          modQueue cmd.core (queueNo cmd.queue) (fun s => { s with wait := none }) r.dev
        else
          match (if (ctxAt r.dev r.job.ctx).sentinel then findRace { j with d := r.dev } else none) with
          | some x => failCmd r.job (raceErr x) r.dev
          | none => issued r j := by
  unfold started at h
  split at h
  · cases h
  next ctx hi =>
    split at h
    · cases h
    next d' hf =>
      split at h
      · cases h
      next ks hk =>
        simp only [] at h
        split at h
        next hc =>
          cases h
          simp only [Bool.and_eq_true, formOk, canIssue, Bool.not_eq_true', decide_eq_true_eq] at hc
          obtain ⟨⟨hcore, ⟨hacc, hrange⟩, hglue⟩, hset, hroom⟩ := hc
          have hset' := hset
          simp only [List.all_eq_not_any_not, Bool.not_eq_true'] at hset'
          simp only [cmdFlags] at hk hrange hset' hroom
          simp only [runCmd, hi, hf, issueCmd, issued, hacc, hrange, hglue, hk, hset', Bool.not_true,
            Bool.false_eq_true, if_false]
          split
          next hb => exact absurd (hroom.symm.trans hb) Bool.false_ne_true
          · rfl
        · cases h

/-- A queue command that starts, whose work is done and meets no race, is issued. -/
theorem runCmd_issues {cmd : QCmd} {accept : List Nat} {engine glueOk : Bool} {more : List (Nat × Bool)}
    {ops : List Nat} {body : Job → Except Stop Job} {d : Dev} {r : Ready} {j : Job}
    (h : started cmd accept engine glueOk more ops d = some r) (hb : body r.job = .ok j) (hr : issuesNow r j = true) :
    runCmd cmd accept engine glueOk more ops body d = issued r j := by
  rw [runCmd_started h, hb]
  simp only [issuesNow, Bool.and_eq_true, Bool.or_eq_true, Bool.not_eq_true', Option.isNone_iff_eq_none] at hr
  obtain ⟨hb, hr⟩ := hr
  have : (if (ctxAt r.dev r.job.ctx).sentinel then findRace { j with d := r.dev } else none) = none := by
    rcases hr with h | h <;> simp [h]
  simp only [hb, this, Bool.false_eq_true, if_false]

/-- A command that starts names a core of the module. -/
theorem started_core {cmd : QCmd} {accept : List Nat} {engine glueOk : Bool} {more : List (Nat × Bool)}
    {ops : List Nat} {d : Dev} {r : Ready} (h : started cmd accept engine glueOk more ops d = some r) :
    cmd.core < 160 := by
  unfold started at h
  split at h
  · cases h
  · split at h
    · cases h
    · split at h
      · cases h
      · simp only [] at h
        split at h
        next hc =>
          simp only [Bool.and_eq_true, decide_eq_true_eq] at hc
          exact hc.1.1
        · cases h

/-- The command at work is the command that started, on its own core and queue. -/
theorem started_job {cmd : QCmd} {accept : List Nat} {engine glueOk : Bool} {more : List (Nat × Bool)}
    {ops : List Nat} {d : Dev} {r : Ready} (h : started cmd accept engine glueOk more ops d = some r) :
    r.job.cmd = cmd ∧ r.job.core = cmd.core ∧ r.job.q = queueNo cmd.queue := by
  unfold started at h
  split at h
  · cases h
  · split at h
    · cases h
    · split at h
      · cases h
      · simp only [] at h
        split at h
        · cases h
          exact ⟨rfl, rfl, rfl⟩
        · cases h

/-- The meaning of a queue command that starts and is done. -/
theorem onDev_issues {cmd : QCmd} {accept : List Nat} {engine glueOk : Bool} {more : List (Nat × Bool)}
    {ops : List Nat} {body : Job → Except Stop Job} {s : State} {r : Ready} {j : Job}
    (h : started cmd accept engine glueOk more ops s.dev = some r) (hb : body r.job = .ok j)
    (hr : issuesNow r j = true) :
    onDev (coreKnown cmd.core) (runCmd cmd accept engine glueOk more ops body) s
      = .next { s with dev := issued r j } := by
  simp [onDev, coreKnown, started_core h, runCmd_issues h hb hr]

end Sys2Proof.Machine
end

