-- ==== Sys2Proof/Tests/Slice0.lean ====
section
/-!
SUPPORT. Tests: what WellFormed refuses, that the table spells no command by a word, for each statement a state and
operands that meet its hypotheses, and small checks against values that the spec gives.
-/

namespace Sys2Proof.Tests.Slice0

open Sys2Proof Sys2Proof.Machine

-- One theorem after the other: the checks below need much stack, and together more than a build allows.
set_option Elab.async false

/-! ### States for the tests -/

/-- What a result that may fail gives, if it does not. -/
def got {α : Type} (x : Except Stop α) : Option α :=
  match x with
  | .ok a => some a
  | .error _ => none

/-- A module in service with its host link up, at 1 s of keystone time. -/
def up : Dev :=
  { pwr := { phase := .ready, perst := false, vin := 6000 }
    kt := { now := 1000000000 * 65536 }
    hbmc := { active := List.range 128 }
    hostp := { link := true, memActive := true } }

/-- A descriptor image of one dimension (R209). -/
def img (fmt elem base size : Nat) (write idx : Bool) : List Byte :=
  leBytes 8 (packFields [(base, 48), (fmt, 4), (0, 1), (bit01 write, 1), (0, 1), (1, 1), (1, 3), (bit01 idx, 1)])
    ++ leBytes 8 base ++ leBytes 8 (base + 0x1000) ++ leBytes 16 0 ++ leBytes 8 (packFields [(0, 32), (1, 1), (elem, 2)])
    ++ leBytes 24 size ++ leBytes 24 1 ++ leBytes 96 0

/-- An open reduction on the hint path with l0 = −64. -/
def red0 : Red :=
  { path := 1, w128 := true, hall := false, isOpen := true, resolved := false, error := false, single := false, fmt := 1,
    sat := false, l0 := -64, l := -64, emax := noExp, k := 16, count := 0, surveyA := 0, surveyB := 0, flagSurvey := 1,
    flagDone := 2, collective := 0, pend := 1 }

/-- Device-virtual 0 to 64 MiB lies at HBM 64 MiB. -/
def va (a : Nat) : Nat := 0x4000000 + a

/-- The record of the context that runs in the tests. -/
def ctx1 : Ctx :=
  { state := .resident
    ptRoot := 0x10000
    flagBase := 0x20000
    descBase := 0x30000
    flagCount := 3
    descCount := 10
    gaugeCount := 16
    redBase := 0x1000
    gaugeBase := 0x4000
    cores := 1
    channels := 1 }

/-- Context 1 resident on core 0 with its tables in HBM, its four queues running, physical flags 0 (set), 1 and 2
mapped, descriptors 0 to 9, reduction records 0 to 4 and the default gauge slot of V32e8. -/
def work : Dev :=
  { up with
    hbm := memOf 0x10000 (leBytes 8 0x14001) ++ memOf 0x14000 (leBytes 8 0x4000007)
      ++ memOf 0x20000 (leBytes 4 0x80000000 ++ leBytes 4 0x80000001 ++ leBytes 4 0x80000002)
      ++ memOf 0x30000 (img 7 0 0x10000 4 true false ++ img 7 0 0x10000 4 false true ++ img 7 0 0x10000 4 true true
        ++ img 0 1 0x12000 4 true false ++ img 0 1 0x12000 4 true true ++ img 0 2 0x14000 4 true true
        ++ img 7 0 0x10000 4 true false ++ img 7 0 0x10100 4 true false ++ img 7 0 0x10200 4 true false
        ++ img 7 0 0x10000 0 true false)
      ++ memOf (va 0x1000) (packRed red0
        ++ packRed { red0 with fmt := 7, single := true }
        ++ packRed { red0 with isOpen := true, resolved := true, count := 16, pend := 0 }
        ++ packRed { red0 with path := 0, single := true, fmt := 5 }
        ++ packRed { red0 with fmt := 7, single := true, resolved := true, count := 16, pend := 0 })
      ++ memOf (va 0x4000 + 320 * 7 + 0x120) (leBytes 8 (packFields [(0, 32), (7, 4)]))
      ++ memOf (va 0x10000) (leBytes 4 0x3F800000 ++ leBytes 4 0x40000000)
    flags := [(0, { value := true, mapped := true, owner := 1 }), (1, { mapped := true, owner := 1 }),
      (2, { mapped := true, owner := 1 })]
    cores := [(0, { resident := some 1 })]
    queues := [(0, { running := true, pc := 0x8000 }), (1, { running := true, pc := 0x8000 }),
      (2, { running := true, pc := 0x8000 }), (3, { running := true, pc := 0x8000 })]
    parts := [(1024, 1), (1025, 1), (1027, 1)]
    ctxs := [(1, ctx1)]
    chans := [(0, { owner := some 1 })] }

/-- `work` with more bytes, above all that it lists. -/
def withMem (l : List Host.Cell) : Dev := { work with hbm := work.hbm ++ l }

/-- The state of a module without waiting commands. -/
def st (d : Dev) : State := ⟨[], {}, d⟩

/-- A command on queue `q` of core 0 that waits on nothing. -/
def qc (q : Queue) : QCmd := ⟨0, q, 7, none, false, none, false, none, false, 1, []⟩

/-- A field without loop steps. -/
def fld (b : Int) : Stepped := { base := b }

/-- `n` elements of `w` bytes from `a` in the bench. -/
def row (a n w : Nat) : BenchOp := ⟨fld a, [(n, w)]⟩

def cv : Conv := ⟨.rne, true, 0, 0⟩

/-- An element-wise command over four binary32 values. -/
def vc4 : VCmd :=
  { prec64 := false, n := 4, a := .bench (row 0 4 4) 7 false none, b := .bench (row 16 4 4) 7 false none
    c := .bench (row 32 4 4) 7 false none, dst := .bench (row 64 4 4) 7 false none, rnd := .rne, conv := cv, ztid := 0
    zorg := fld 0, pred := .none, mask := fld 0, rslot := 1, openRec := true, keep := false, redoOnly := false, r := 2
    d := 3, indexBase := 0, func := .exp, cond := .lt }

/-- A read of the line at 0 without memory errors. -/
def deck0 : DeckF :=
  { host := false, line := 0, write := none, tagErr := none, tagCe := none, dataErr := none, burst := [], caFail := 0, wbFail := 0,
    ctx := none }

/-! ### WellFormed refuses -/

theorem wf_core : (Instr.nop { qc .l with core := 160 }).wf = false := by decide
theorem wf_queue_core : (Instr.commandComplete 160 .l).wf = false := by decide
theorem wf_wait_flag : (Instr.nop { qc .l with waitA := some 16384 }).wf = false := by decide
theorem wf_waitB_flag : (Instr.nop { qc .l with waitB := some 16384 }).wf = false := by decide
theorem wf_done_flag : (Instr.nop { qc .l with done := some 16384 }).wf = false := by decide
theorem wf_lines : (Instr.nop { qc .l with lines := 0 }).wf = false := by decide
theorem wf_bench_upset : (Instr.nop { qc .l with upsets := [.bench 0x180000 0 false] }).wf = false := by decide
theorem wf_joist_upset : (Instr.nop { qc .l with upsets := [.joist 1024 0 true] }).wf = false := by decide
theorem wf_upset_bit : (Instr.nop { qc .l with upsets := [.joist 0 72 false] }).wf = false := by decide
theorem wf_deck_bit : (Instr.deckAccess { deck0 with dataErr := some (576, true) }).wf = false := by decide
theorem wf_cluster : (Instr.planerPanel 20).wf = false := by decide
theorem wf_flag : (Instr.flagTombExpiry 0 4096).wf = false := by decide
theorem wf_port : (Instr.egressGrant 18).wf = false := by decide
theorem wf_port_of_packet : (Instr.mgmtRead (some 18) []).wf = false := by decide
theorem wf_chan : (Instr.mint 640).wf = false := by decide
theorem wf_engine : (Instr.dvGrant 40 none).wf = false := by decide
theorem wf_ring : (Instr.flagSet 4097).wf = false := by decide
theorem wf_ctx : (Instr.launchStart 4096 0).wf = false := by decide
theorem wf_addr : (Instr.hostSnoop (2 ^ 48) none).wf = false := by decide
theorem wf_unit : (Instr.resetDone 0x10A0).wf = false := by decide
theorem wf_unit_type : (Instr.resetDone 0xE000).wf = false := by decide
theorem wf_bench : (Instr.accessTimeout 0x1000 0x2000 none (some (0, 0x180000)) none none false).wf = false := by decide
theorem wf_access_chan : (Instr.accessTimeout 0x1000 0x2000 none none none (some 640) false).wf = false := by decide

/-- What WellFormedCommandsComplete asks holds of commands at the ends of their ranges. -/
theorem wit_WellFormedCommandsComplete :
    [Instr.nop { qc .s with core := 159, waitA := some 16383 }, .planerPanel 19, .flagTombExpiry 19 4095, .egressGrant 17,
      .mgmtRead none [], .mint 639, .dvGrant 39 none, .flagSet 4096, .launchStart 4095 0, .hostSnoop (2 ^ 48 - 1) none,
      .resetDone 0xD001, .railsGood, .accessTimeout 0x1000 0x2000 none (some (159, 0x17FFFF)) none (some 639) false].all
      Instr.wf = true := by decide

/-! ### Words and the queue -/

/-- The table gives no row bits: no word spells a command, and the queue stays. -/
theorem test_no_words : decodeTableWord 0 0 = none ∧ decodeTableWord 64 0xFFFFFFFFFFFFFFFF = none
    ∧ (State.withFetchWord (st up) 64 1).pending = [] := by decide

/-- A step runs the command at the front and keeps the queue's rest. -/
theorem test_step_front :
    (match step { st {} with pending := [.powerOn 6000, .railsGood] } with
      | .next t => decide (t.pending = [.railsGood] ∧ t.dev.pwr.phase = .softStart)
      | _ => false) = true := by decide

/-- With no command a nanosecond passes. -/
theorem test_tick :
    (match step (st up) with
      | .next t => decide (nowNs t.dev = 1000000001)
      | _ => false) = true := by decide

/-- A unit that no module has is the one fault. -/
theorem test_unknown_unit : exec (.planerPanel 20) (st up) = .fault .unknownUnit := rfl

theorem wit_QueueKept : ∃ t, exec .railsGood (st up) = .next t := ⟨_, rfl⟩

/-! ### Engine queues -/

/-- The job of a command without effects that queue `q` accepts. -/
def start (q : Queue) : Option Ready := started (qc q) [queueNo q] true false [] [] work

/-- The step of a command leaves the module as given. -/
def leads (i : Instr) (w d : Dev) : Bool :=
  match exec i (st w) with
  | .next t => decide (t.dev = d)
  | _ => false

def free (r : Ready) (j : Job) : Option Unit := guard (issuesNow r j)

/-- The step of a command that has started goes through, and leaves its issue with the work `j`. -/
def runs (i : Instr) (w : Dev) (r : Ready) (j : Job) : Option Unit :=
  guard (issuesNow r j && leads i w (issued r j))

theorem wit_control_nop_tmark : (do
    let r ← started (qc .l) anyQueue false true [] [] work
    runs (.nop (qc .l)) work r { r.job with imm := true }
    runs (.tmark (qc .l)) work r { r.job with
      imm := true
      d := trace r.job.core r.job.q 2 r.job.ctx 7 r.job.loops r.job.zstep r.job.d }) = some () := by decide +kernel

theorem wit_control_flags : (do
    let r ← started (qc .l) anyQueue false false [(0, true), (0, false)] [] work
    runs (.fwait (qc .l) [(0, true), (0, false)]) work r { r.job with imm := true }
    let r ← started (qc .m) anyQueue false false [] [1, 2, 1, 2] work
    runs (.fset (qc .m) [1, 2, 1, 2]) work r { r.job with fset := [1, 2, 1, 2] }
    runs (.fclr (qc .m) [1, 2, 1, 2]) work r { r.job with fclr := [1, 2, 1, 2] }) = some () := by decide +kernel

/-- A loop within a level of which it is the last command, the fourth level, a QEND on an empty queue, a TWAIT whose time
is now, one that is late and one that fails for it, and a CLAMP. -/
theorem wit_control_rest : (do
    let w := modQueue 0 0 (fun x => { x with loops := List.replicate 3 { count := 2, body := 255 } }) work
    let r ← started (qc .l) anyQueue false false [] [] w
    runs (.loop (qc .l) (2 ^ 24 - 1) 254 4) w r { r.job with imm := true, loop := some (2 ^ 24 - 1, 254, 4) }
    guard ((queueAt r.job.d 0 0).loops.length < 4)
    guard ((queueAt r.job.d 0 0).loops.head?.all (fun l => l.pos + 1 + 254 ≤ l.body))
    let r ← started (qc .l) anyQueue false false [] [] work
    guard ((queueAt r.job.d 0 0).inflight = [])
    runs (.qend (qc .l)) work r { r.job with imm := true, qend := true }
    guard (twaitTarget r.job (fld 1000000000) 0 false = r.job.d.kt.now)
    runs (.twait (qc .l) (fld 1000000000) 0 false true) work r { r.job with imm := true }
    guard (twaitTarget r.job (fld 999999999) 65535 false < r.job.d.kt.now && !twaitHeld r.job)
    runs (.twait (qc .l) (fld 999999999) 65535 false false) work r { r.job with
      d := trace r.job.core r.job.q 3 r.job.ctx 7 r.job.loops r.job.zstep r.job.d, imm := true }
    guard (!clampClash r.job.d 0 0 7 0xF && (0xF#4).getLsbD 0)) = some () := by decide +kernel

theorem wit_RawMovesIssue : (do
    let r ← start .l
    let x ← got (readDesc r.job.d r.job.ctx 0)
    guard (!x.idxEn)
    got (checkBench r.job.loops (descTens x false).width true (row 0 4 4))
    guard ((benchBits r.job.loops (descTens x false).width (row 0 4 4)).length = (descTens x false).count)
    let (es, j) ← got (readRaw (descTens x false) (r.job.tableRead 0))
    let j ← got (copyToBench (descTens x false).width (benchBits r.job.loops (descTens x false).width (row 0 4 4)) es j)
    free r j
    let y ← got (readDesc r.job.d r.job.ctx 1)
    guard y.idxEn
    got (checkBench r.job.loops (descWidth y) true (row 0 2 4))
    got (checkBench r.job.loops 32 false (row 64 2 4))
    guard ((benchBits r.job.loops (descWidth y) (row 0 2 4)).length = indexedCount y (row 64 2 4)
      && !indexedEmpty y (row 64 2 4))
    let (ts, j) ← got (readIndexes (row 64 2 4) (r.job.tableRead 1))
    guard (ts.all (fun t => 0 ≤ t && t < y.size.getD y.idxDim 0))
    let (es, j) ← got (readRaw (indexedTens y ts false) j)
    let j ← got (copyToBench (descWidth y) (benchBits j.loops (descWidth y) (row 0 2 4)) es j)
    free r j
    guard (indexedEmpty y (row 64 0 4) && (benchBits r.job.loops (descWidth y) (row 0 0 4)).length = indexedCount y (row 64 0 4))
    free r (r.job.tableRead 1)) = some () := by decide +kernel

theorem wit_raw_rows : (do
    let r ← start .l
    runs (.jrawLoad (qc .l) (fld 1000) 1023 1) work r { r.job with
      d := setJrow 0 1023 { parseRow (benchRead r.job.d 0 1000 544) with
        poison := (parseRow (benchRead r.job.d 0 1000 544)).poison || benchPoisoned r.job.d 0 1000 544 } r.job.d
      reads := [(1000, 544)]
      dsts := [Region.rows 1023 1] }
    let r ← start .s
    runs (.jrawStore (qc .s) (fld (benchSize - 544)) 1023 1) work r { r.job with
      d := benchWrite 0 (benchSize - 544) (packRow (jrow r.job.d 0 1023)) r.job.d
      rds := [Region.rows 1023 1]
      writes := [(benchSize - 544, 544)]
      dsts := [Region.bench (benchSize - 544) 544] }) = some () := by decide +kernel

theorem wit_StoreAndScatterIssue : (do
    let r ← start .s
    let src ← got (storeSrc (row 0 4 4) 7 r.job)
    let x ← got (readDesc r.job.d r.job.ctx 0)
    guard (x.write && !x.idxEn && x.elem = 0 && (descTens x false).count = src.count && src.count ≠ 0)
    let (g, j) ← got (gaugeCheck 0 x.fmt x.panel (r.job.tableRead 0))
    let (vs, j) ← got (takeVals src j)
    let j ← got (convWrite (descTens x false) cv g (vs.map (fun v => Lane.val v.1 v.2)) j)
    runs (.store (qc .s) ⟨row 0 4 4, 7, fld 0, cv⟩) work r j
    let e ← got (readDesc r.job.d r.job.ctx 9)
    let none_ ← got (storeSrc (row 0 0 4) 7 r.job)
    guard (e.write && !e.idxEn && e.elem = 0 && (descTens e false).count = 0 && none_.count = 0)
    runs (.store (qc .s) ⟨row 0 0 4, 7, fld 9, cv⟩) work r (r.job.tableRead 9)) = some () := by decide +kernel

/-- A SCATTER of `n` elements into descriptor `h`. -/
def sca (n : Nat) (h : Int) (m : ScatterMode) : ScatterF := ⟨row 0 n 4, 7, row 64 n 4, fld h, m, 2 ^ 31 - 1, cv⟩

theorem wit_scatter : (do
    let r ← start .s
    let src ← got (storeSrc (row 0 1 4) 7 r.job)
    let y ← got (readDesc r.job.d r.job.ctx 2)
    got (checkBench r.job.loops 32 false (row 64 1 4))
    let (ts, j) ← got (readIndexes (row 64 1 4) { r.job.tableRead 2 with atom := false })
    guard (y.write && y.idxEn && y.elem = modeElem .unique && src.count = indexedCount y (row 64 1 4)
      && !indexedEmpty y (row 64 1 4))
    let (vs, j) ← got (takeVals src j)
    got (uniqueCheck (y.size.getD y.idxDim 0) ts)
    let (g, j) ← got (gaugeCheck 0 y.fmt y.panel j)
    let j ← got (convWrite (indexedTens y ts false) cv g (vs.map (fun v => Lane.val v.1 v.2)) j)
    free r j
    let z ← got (readDesc r.job.d r.job.ctx 5)
    let (ts, j) ← got (readIndexes (row 64 1 4) { r.job.tableRead 5 with atom := true })
    guard (z.write && z.idxEn && z.elem = modeElem .max && src.count = indexedCount z (row 64 1 4)
      && !indexedEmpty z (row 64 1 4) && !z.space)
    let (vs, j) ← got (takeVals src j)
    let j ← got (scatterAll (sca 1 5 .max) (z.size.getD z.idxDim 0) 0
      ((elemIndexes z ts).zip (((indexedTens z ts false).addrs.map (· / 8)).zip vs)) j)
    free r j
    let none_ ← got (storeSrc (row 0 0 4) 7 r.job)
    guard (none_.count = indexedCount z (row 64 0 4) && indexedEmpty z (row 64 0 4))
    free r { r.job.tableRead 5 with atom := true }) = some () := by decide +kernel

/-- An EPILOGUE of one element of a finished block row. -/
def epi1 : EpilogueF :=
  { joistBase := 0, mSize := 1, nSize := 1, rslot := 2, op := .add, opnd := some (.bench (row 0 1 4) 7 false none),
    dst := .bench (row 64 1 4) 7 false none, conv := cv, keep := false, bound := 0, checkFault := false, ztid := 0,
    zorg := fld 0 }

theorem wit_EpilogueIssues : (do
    let w := setJrow 0 0 { valid := true, rslot := 2, anchor := -64, count := 16, eobs := -10,
                           words := List.replicate 32 4 } work
    let r ← started (qc .s) [3] true false [] [] w
    let (t, j) ← got (argTens epi1.dst true 1 0 0 r.job)
    let (g, j) ← got (gaugeCheck 0 t.fmt t.panel j)
    let (red, d) ← got (redLoad j.unit j.ctx 2 j.d)
    let (ops, j) ← got (epiOperand epi1 1 { j with d := d })
    let rows ← got (epiRows epi1 red j)
    guard (epiPoison epi1 j 0 = none && ops.all (fun o => o.2 = none))
    let j ← got (epiWrite epi1 red t g rows ops { j with rds := epiRegions epi1 rows ++ j.rds })
    runs (.epilogue (qc .s) epi1) w r j) = some () := by decide +kernel

/-- A matrix product of one element over four positions of binary16. -/
def mat1 : MatmulF :=
  { fmt := 1, fmtB := 1, aAddr := fld 0, aStride := 64, bAddr := fld 0x1000, bStride := 64, aPanel := 0, bPanel := 0,
    aScale := fld 0, aScaleStride := 0, bScale := fld 0, bScaleStride := 0, mSize := 1, nSize := 1, kc := 4,
    joistBase := 32, rslot := 0, openRows := true, sister := false, redoOnly := false }

/-- The definition of a reduction as a program opens it. -/
def spanOpen1 : SpanOpenF :=
  { rslot := 9, path := .hint, w128 := true, hall := false, single := false, fmt := 1, l0 := -64, k := 16,
    flagSurvey := 1, flagDone := 2, collective := 0, cores := 1, panel := false, indexSpace := none }

/-- `work` with a block of finished rows of slot `slot` from joist row 0. -/
def workRows (slot : Nat) : Dev :=
  (List.range 32).foldl (fun d i =>
    setJrow 0 i { valid := true, rslot := slot, anchor := -64, count := 16, eobs := -10, words := List.replicate 32 4 } d)
    work

theorem wit_ReductionCommandsIssue : (do
    let r ← start .s
    let d ← got (spanOpenRed r.job.unit 1 spanOpen1 r.job.d)
    free r { r.job with d := d }
    let (red, d) ← got (redLoad r.job.unit 1 2 r.job.d)
    guard (red.resolved && red.pend = 0)
    let d ← got (redStore r.job.unit 1 2 { red with isOpen := false } d)
    free r { r.job with d := { d with parts := mapPut 0 (1024 + 2) 0 d.parts } }
    let l ← start .l
    let (va, j) ← got (surveyByte none l.job)
    let (vb, j) ← got (surveyByte (some (row 0 4 1)) j)
    let d ← got (surveyPost j.unit 1 3 0 va vb j.d)
    free l { j with d := d, atom := true }) = some () := by decide +kernel

theorem wit_reductions_close_add : (do
    let r ← started (qc .m) [1] true false [] [] (workRows 0)
    let (rs, p, j) ← got (readShare (.rows 0 1) r.job)
    let x ← rs.head?
    guard (p = none && rs.all (fun y => y.valid && y.rslot = 0 && y.count = x.count))
    let d ← got (closePost j.unit 1 0 0
      ⟨rs.foldl (fun a y => min a y.anchor) x.anchor, rs.foldl (fun e y => maxExp e y.eobs) noExp,
        rs.foldl (fun e y => e.or y.sticky) {}, x.count⟩ j.d)
    free r { j with d := d, atom := true }
    let w := benchWrite 0 0x200 (packSpan { valid := true, rslot := 2, anchor := -64, i := 5, count := 16 })
      (writeMem false (va 0x12020) (packSpan { valid := true, rslot := 2, anchor := -64 }) work)
    let r ← started (qc .s) [3] true false [] [] w
    let x ← got (readDesc r.job.d 1 3)
    guard (!x.idxEn && x.write && !x.space && x.elem = 1)
    let (ws, p, j) ← got (addWords (.records (fld 0x200) 1) { r.job.tableRead 3 with atom := true })
    guard (p = none && 1 + ws.length ≤ (descTens x false).count)
    let (red, d) ← got (redLoad j.unit 1 2 j.d)
    let j ← got (spanAddAll 2 red (ws.zip (((descTens x false).addrs.drop 1).map (· / 8))) { j with d := d })
    free r j) = some () := by decide +kernel

theorem wit_MatmulIssues : (do
    let r ← start .m
    let a ← got (matOperandOf 1 4 0 64 0 0 0)
    let b ← got (matOperandOf 1 4 0x1000 64 0 0 0)
    guard (tilesFree mat1 r.job)
    let (red, d) ← got (redLoad r.job.unit 1 0 r.job.d)
    guard (red.isOpen && red.fmt = 1 && !red.single && red.path = 1)
    let j ← got (matmulRows mat1 red (if red.path = 1 ∧ !red.resolved then red.l0 else red.l) { r.job with d := d })
    let j ← got (matmulPass mat1 a b red ⟨red.path, red.k, red.w, red.path == 1⟩
      { j with tiles := (passTiles mat1).map (· / 256) })
    runs (.matmul (qc .m) mat1) work r j) = some () := by decide +kernel

theorem wit_MatmulWithoutTerms : (do
    let r ← start .m
    let _ ← got (matOperandOf 1 0 0 64 0 0 0)
    let _ ← got (matOperandOf 1 0 0x1000 64 0 0 0)
    guard (tilesFree mat1 r.job)
    runs (.matmul (qc .m) { mat1 with kc := 0, openRows := false }) work r r.job
    guard ((blockRows r.job.d 0 32).all (fun x => !x.redone))
    runs (.matmul (qc .m) { mat1 with openRows := false, redoOnly := true }) work r r.job
    let (red, d) ← got (redLoad r.job.unit 1 0 r.job.d)
    guard (red.isOpen && red.fmt = 1 && !red.single && red.path = 1)
    let f := { mat1 with kc := 0 }
    runs (.matmul (qc .m) f) work r { r.job with
      d := (passTiles f).foldl (fun e jb => putRows 0 jb (List.replicate 32 (openRow 0 1 (-64) f)) e) d
      tiles := (passTiles f).map (· / 256)
      dsts := (passTiles f).map (fun jb => Region.rows jb 32) }) = some () := by decide +kernel

/-- Rows at the final anchor of their reduction, of which a REDO_ONLY pass that opens them finds none to redo. -/
theorem wit_matmul_nothing_to_redo : (do
    let f : MatmulF := { mat1 with rslot := 2, joistBase := 0, redoOnly := true }
    let w := workRows 2
    let r ← started (qc .m) [1] true false [] [] w
    let (red, d) ← got (redLoad r.job.unit 1 2 r.job.d)
    guard (red.isOpen && red.fmt = 1 && !red.single && red.path = 1 && !redoRuns f red (blockRows d 0 0))
    runs (.matmul (qc .m) f) w r { r.job with d := d }) = some () := by decide +kernel

/-- What ElementwiseCommandsIssue asks of a command: VADD, VSEL with its mask, and VCVT. -/
def elemOk (i : Instr) : Option Unit := do
  let (q, f, rd, srcs, cvt, sel, op) ← elementwiseRule i
  let r ← started q [2] true false [] [] work
  let (dto, j) ← got (planDst f f.n cvt r.job)
  let (ls, j) ← got (readSrcs rd f srcs j)
  let (bits, j) ← got (if sel then readMask f.mask f.n j else predLanes f f.n j)
  guard (poisonedLanes (if sel then List.replicate f.n true else bits) (transposeLanes f.n ls) = [])
  let outs := ((transposeLanes f.n ls).zip ((if sel then List.replicate f.n true else bits).zip bits)).map
    (fun (p : List VIn × (Bool × Bool)) =>
      if p.2.1 then ((op j p.2.2 p.1).1, (op j p.2.2 p.1).2 ||| orFlags (p.1.map (·.fl))) else (maskedLane f, 0))
  let j ← got (writeDst f dto (outs.map (·.1)) { j with d := addFlags j.ctx (orFlags (outs.map (·.2))) j.d })
  runs i work r j

theorem wit_elementwise_add : elemOk (.vadd (qc .v) vc4) = some () := by decide +kernel
theorem wit_elementwise_sel : elemOk (.vsel (qc .v) { vc4 with pred := .merge }) = some () := by decide +kernel
theorem wit_elementwise_cvt : elemOk (.vcvt (qc .v) { vc4 with dst := .vx 3 1 false }) = some () := by decide +kernel
theorem wit_elementwise_empty : (do
    let f := { vc4 with n := 0 }
    let r ← start .v
    let _ ← elementwiseRule (.vadd (qc .v) f)
    runs (.vadd (qc .v) f) work r r.job) = some () := by decide +kernel

theorem wit_CompareCommandsIssue : (do
    let f := { vc4 with dst := .bench (row (benchSize - 8) 1 8) 0 false none, pred := .merge, cond := .un }
    let r ← start .v
    runs (.vicmp (qc .v) { f with n := 0 }) work r r.job
    let (ls, j) ← got (readSrcs .prec f [f.a, f.b] r.job)
    let (bits, j) ← got (predLanes f 4 j)
    guard (poisonedLanes bits (transposeLanes 4 ls) = [])
    let j ← got (putWrites true [⟨8 * ((benchSize - 8 : Nat) : Int), 64,
      maskWord (benchLe j.d 0 (benchSize - 8) 8) [none, none, none, none]⟩] { j with d := addFlags j.ctx 0 j.d })
    runs (.vcmp (qc .v) f) work r j) = some () := by decide +kernel

/-- VSPAN of four terms into one record of slot 1. -/
theorem wit_SpanCommandsIssue : (do
    let f := { vc4 with b := .none, dst := .bench (row 0x200 1 32) 0 false none, r := 1 }
    let r ← start .v
    runs (.vspan (qc .v) { f with n := 0 }) work r r.job
    guard (dstBase f r.job = some 0x200)
    let (old, _) ← got (readSpans 0x200 1 r.job)
    let (red, d) ← got (redLoad r.job.unit 1 1 r.job.d)
    guard (red.isOpen && red.path ≠ 3 && red.single == !srcNamed f.b && srcFmt f f.a == red.fmt)
    let (ls, j) ← got (readSrcs .exact f [f.a] { r.job with d := d })
    let (bits, j) ← got (predLanes f 4 j)
    let terms := bits.zip ((transposeLanes 4 ls).map (spanTerm false))
    let xs ← got (spanRecords f red (spanSweep terms) (old.map (·.1)) j.d)
    guard (poisonedLanes bits (transposeLanes 4 ls) = [])
    let j ← got (writeSpans 0x200 (spanEnterAll red terms xs) j)
    runs (.vspan (qc .v) f) work r j) = some () := by decide +kernel

/-- A REDO_ONLY one whose record was not redone, one whose record was, and one that opens a record at the final anchor. -/
theorem wit_spans_redo : (do
    let f := { vc4 with b := .none, dst := .bench (row 0x200 1 32) 0 false none, r := 1, openRec := false, redoOnly := true }
    let w := benchWrite 0 0x200 (packSpan { valid := true, rslot := 1, anchor := -64 }) work
    let r ← started (qc .v) [2] true false [] [] w
    let (old, _) ← got (readSpans 0x200 1 r.job)
    guard (old.all (fun x => !x.2 && !x.1.redone))
    runs (.vspan (qc .v) f) w r r.job
    let w := benchWrite 0 0x200 (packSpan { valid := true, rslot := 1, anchor := -64, redone := true }) work
    let r ← started (qc .v) [2] true false [] [] w
    let (old, jr) ← got (readSpans 0x200 1 r.job)
    guard (old.all (fun x => !x.2 && x.1.redone))
    let (red, d) ← got (redLoad r.job.unit 1 1 r.job.d)
    let (ls, j) ← got (readSrcs .exact f [f.a] { jr with d := d })
    let (bits, j) ← got (predLanes f 4 j)
    let terms := bits.zip ((transposeLanes 4 ls).map (spanTerm false))
    let xs ← got (spanRecords f red (spanSweep terms) (old.map (·.1)) j.d)
    let j ← got (writeSpans 0x200 (spanEnterAll red terms xs) j)
    runs (.vspan (qc .v) f) w r j
    let (red, _) ← got (redLoad r.job.unit 1 4 r.job.d)
    let g := { f with openRec := true, rslot := 4 }
    let w := benchWrite 0 0x200 (packSpan { valid := true, rslot := 4, anchor := red.l }) work
    let r ← started (qc .v) [2] true false [] [] w
    let (red, d) ← got (redLoad r.job.unit 1 4 r.job.d)
    let (old, _) ← got (readSpans 0x200 1 r.job)
    guard (red.isOpen && red.single && old.all (fun x => !x.2 && x.1.anchor = red.l && !x.1.redo))
    runs (.vspan (qc .v) g) w r { r.job with d := d }) = some () := by decide +kernel

theorem wit_spans_out : (do
    let f := { vc4 with a := .bench (row 0x200 1 32) 0 false none, dst := .bench (row 64 1 4) 7 false none, rslot := 4, r := 1, d := 2 ^ 32 - 1 }
    let w := benchWrite 0 0x200 (packSpan { valid := true, rslot := 4, anchor := -64, i := 3 * 2 ^ 70, count := 16 }) work
    let r ← started (qc .v) [2] true false [] [] w
    let (old, j) ← got (readSpans 0x200 1 r.job)
    let (dto, j) ← got (planDst f 1 false j)
    let (bits, j) ← got (predLanes f 1 j)
    let (red, d) ← got (redLoad j.unit j.ctx 4 j.d)
    guard (red.resolved && old.all (fun x => !x.2 && x.1.valid && x.1.rslot = 4 && !x.1.redo && x.1.anchor = red.l))
    let j ← got (writeDst f dto ((bits.zip (old.map (fun x => spanVal x.1.i x.1.anchor x.1.sticky))).map
      (fun p => if p.1 then Lane.quot p.2 f.d else maskedLane f)) { j with d := d })
    let j ← got (clearValid 0x200 1 j)
    runs (.vspanOut (qc .v) f) w r j) = some () := by decide +kernel

theorem wit_ExtremaIssue : (do
    let f := { vc4 with dst := .bench (row 0x200 1 8) 7 false none, r := 1 }
    let r ← start .v
    runs (.vredmin (qc .v) { f with n := 0 }) work r r.job
    guard (dstBase f r.job = some 0x200)
    let (ls, j) ← got (readSrcs .exact f [f.a] r.job)
    let (bits, j) ← got (predLanes f 4 j)
    guard (poisonedLanes bits (transposeLanes 4 ls) = [])
    let ps := pairEnterAll true 0 (bits.zip ((transposeLanes 4 ls).filterMap List.head?)) [⟨.inf true, 0x7FFFFFFF, true, false⟩]
    let outs := [(0, 0)].zip ps |>.filterMap (fun p => if p.2.new then some (pairBits f (elemRandom j cv 0 0) p.2) else none)
    let j ← got (putWrites true (outs.map (fun p => (⟨8 * 0x200, 64, p.1⟩ : BitWrite)))
      { j with d := addFlags j.ctx (orFlags (outs.map (·.2))) j.d })
    runs (.vredmax (qc .v) f) work r j) = some () := by decide +kernel

/-- One that goes on with its pair record, the last eight bytes of the bench. -/
theorem wit_extrema_kept : (do
    let f := { vc4 with dst := .bench (row (benchSize - 8) 1 8) 7 false none, r := 1, openRec := false }
    let r ← start .v
    let (ls, j) ← got (readSrcs .exact f [f.a] r.job)
    let (bits, j) ← got (predLanes f 4 j)
    guard (!benchPoisoned j.d 0 (benchSize - 8) 8)
    let ps := pairEnterAll false 0 (bits.zip ((transposeLanes 4 ls).filterMap List.head?))
      [⟨decodeElem 7 (benchLe j.d 0 (benchSize - 8) 8 % 2 ^ 32), ofTwos 32 (benchLe j.d 0 (benchSize - 8) 8 / 2 ^ 32), false, false⟩]
    let outs := [(0, 0)].zip ps |>.filterMap (fun p => if p.2.new then some (pairBits f (elemRandom j cv 0 0) p.2) else none)
    let j ← got (putWrites true (outs.map (fun p => (⟨8 * ((benchSize - 8 : Nat) : Int), 64, p.1⟩ : BitWrite)))
      { j with
        d := addFlags j.ctx (orFlags (outs.map (·.2))) j.d
        reads := (benchSize - 8, 8) :: j.reads })
    runs (.vredmin (qc .v) f) work r j) = some () := by decide +kernel

/-! ### Glue-ups and training -/

/-- A LD of the first eight bytes of descriptor 0. -/
def ld1 : AtomicF :=
  { op := .ld, width := 8, dst := fld 0, element := fld 0, n := 1, opnd := fld 0, cmp := fld 0, ret := some (fld 64),
    bmask := 0, rslot := 0, guard := false }

/-- A glue-up of core 0 with one action, before it commits. -/
def glue1 : Glue :=
  { id := 3, core := 0, ctx := 1, status := 128, acts := [{ op := .iadd, pa := va 0x12000, opnd := 1 }] }

def withGlue (g : Glue) : Dev := { work with glues := [g] }

theorem wit_GlueCommandsIssue : (do
    let r ← started (qc .s) [3] true true [] [] work
    let (ts, j) ← got (atomPlan ld1 r.job)
    guard (openGlue j.d j.core = none)
    let j ← got (atomRun ld1 ts j)
    guard (issuesNow r j && leads (.atomic (qc .s) ld1) work (sendActs 0 (actCount work 0) (issued r j)))
    let w := withGlue glue1
    let r ← started (qc .s) [3] true true [] [] w
    let (ts, j) ← got (atomPlan ld1 r.job)
    let g ← openGlue j.d j.core
    let (as, j) ← got (glueActs ld1 7 ts j)
    guard (glueFits (g.acts ++ as))
    let j := { j with d := putGlue { g with acts := g.acts ++ as } j.d, writes := [] }
    free r j) = some () := by
  decide +kernel

/-- The wait of SINIT for a held line of its reduction record shuts no glue-up out: here none is held. -/
theorem wit_glue_sinit : sinitOpnd 0 1 2 work ≠ .error .wait := by decide +kernel

theorem wit_glue_brackets : (do
    let r ← started (qc .s) [3] false false [] [] work
    guard (r.job.d.glues = [])
    runs (.glueBegin (qc .s) (fld (benchSize - 8))) work r { r.job with
      glueMark := true
      d := modQueue 0 3 (fun x => { x with glueLast := 0 }) { r.job.d with
        glues := [{ id := 3, core := 0, ctx := 1, status := benchSize - 8, pc := 0x8000 }] } }
    let again := modQueue 0 3 (fun x => { x with glueLast := 5 }) work
    let r ← started (qc .s) [3] false false [] [] again
    runs (.glueBegin { qc .s with waitA := some 1 } (fld 0)) again r { r.job with
      glueMark := true
      d := modQueue 0 3 (fun x => { x with glueLast := 0 }) { r.job.d with
        glues := [{ id := 3, core := 0, ctx := 1, status := 0, pc := 0x8000, last := 5 }] } }
    let w := withGlue glue1
    let r ← started (qc .s) [3] false true [] [2] w
    let g ← openGlue r.job.d r.job.core
    let j := { r.job with
      d := putGlue { g with commitIssued := true, fail := flightKey r.job.d r.job (some 2) } r.job.d
      writes := [(g.status, 8)]
      dsts := [Region.bench g.status 8] }
    guard (issuesNow r j && leads (.glueCommit (qc .s) (some 2)) w (settleGlue 3 (issued r j)))) = some () := by decide +kernel

theorem wit_glue_backoff : (do
    let g := { glue1 with phase := .backoff, commitIssued := true }
    let g' := { dropAttempt g with phase := .marking, attempts := g.attempts + 1 }
    guard (g.retryAt ≤ nowNs work && leads (.glueBackoff 3) (withGlue g)
      (settleGlue 3 (stageAll (withGlue g) 0 g.acts g' (putGlue g' (withGlue g)))))) = some () := by decide +kernel

theorem wit_glue_clamped : (do
    let g := { glue1 with phase := .waitClamp, commitIssued := true, counted := 4, attempts := 5 }
    guard (clampTurn (withGlue g) g)
    let x := lockLines 3 (glueLines g) (putGlue { g with clamped := true, attempts := 5 } (withGlue g))
    guard x.2
    let g' ← glueAt x.1 3
    let h := { dropAttempt g' with marks := g'.marks, phase := .marking }
    guard (leads (.glueClamped 3) (withGlue g) (settleGlue 3 (stageAll x.1 0 g'.acts h (putGlue h x.1))))) = some () := by
  decide +kernel

/-- A committed glue-up whose deck has not applied its line, and one whose deck has. -/
def glue2 (acked : List Nat) : Glue := { glue1 with phase := .committed, marks := [va 0x12000], acked := acked }

theorem wit_glue_apply : (glueDecks (withGlue (glue2 [])) (glue2 [])).all (fun k => decide (k < 20)
      && leads (.glueApply 3 k true false) (withGlue (glue2 []))
        (putGlue { glue2 [] with acked := [k] } (putLines [k] [] (withGlue (glue2 []))))) = true
    ∧ glueDecks (withGlue (glue2 [])) (glue2 []) ≠ [] := by decide +kernel

theorem wit_glue_release : (glueDecks (withGlue (glue2 (List.range 20))) (glue2 (List.range 20))).all
      (fun k => (glue2 (List.range 20)).acked.contains k) = true
    ∧ leads (.glueRelease 3) (withGlue (glue2 (List.range 20)))
      (finishGlue (glue2 (List.range 20)) (withGlue (glue2 (List.range 20)))) = true := by decide +kernel

theorem wit_glue_timeout :
    let g := { glue1 with counted := 4, commitIssued := true }
    glueAt (withGlue g) 3 = some g ∧ g.clampAt + 50000 ≤ nowNs work
      ∧ leads (.glueTimeout 3) (withGlue g) (errorAbort g (raiseFields glueTimeoutCls (unitCluster 0) (some 1)
        [(0, 5), (0, 5)] (withGlue g))) = true := by decide +kernel

theorem wit_TrainingCommandsIssue : (do
    let r ← start .s
    runs (.zstep (qc .s) (.set (BitVec.allOnes 64))) work r { r.job with
      zold := some r.job.zstep
      d := modCore 0 (fun c => { c with zstep := BitVec.allOnes 64 }) r.job.d }
    guard (r.job.zstep ≠ BitVec.allOnes 64)
    runs (.zstep (qc .s) .inc) work r { r.job with
      zold := some r.job.zstep
      d := modCore 0 (fun c => { c with zstep := c.zstep + 1 }) r.job.d }) = some () := by decide +kernel

theorem wit_zfill : (do
    let r ← start .s
    let f : ZfillF :=
      { dst := fld (benchSize - 8), n := 4, ztid := 2 ^ 24 - 1, zorg := fld (2 ^ 43 - 4), stream := 4, mask := false,
        thresh := 65535 }
    let bs := zfillBytes f (benchLe r.job.d 0 (benchSize - 8) 8) (zfillVals f r.job)
    runs (.zfill (qc .s) f) work r { r.job with
      d := benchWrite 0 (benchSize - 8) bs r.job.d
      writes := [(benchSize - 8, 8)]
      dsts := [Region.bench (benchSize - 8) 8] }
    let m : ZfillF := { f with mask := true }
    let bs := zfillBytes m (benchLe r.job.d 0 (benchSize - 8) 1) (zfillVals m r.job)
    runs (.zfill (qc .s) m) work r { r.job with
      d := benchWrite 0 (benchSize - 8) bs r.job.d
      writes := [(benchSize - 8, 1)]
      dsts := [Region.bench (benchSize - 8) 1] }) = some () := by decide +kernel

theorem wit_gauge_reset : (do
    let r ← start .s
    guard (fmtKnown 7 && gaugeSlotNo 0 7 < 10 && gaugeSlotNo 0 7 < (ctxAt r.job.d 1).gaugeCount)
    let w := gaugeDefault 7 false
    let j ← got (putWrites false ((List.range 5).map (fun i : Nat =>
      (⟨((gaugeAddr r.job.d 1 (gaugeSlotNo 0 7) + 64 * i : Nat) : Int) * 8, 512,
        leAt (gaugeSlotBytes 7 false w) (64 * i) 64⟩ : BitWrite))) r.job)
    free r j) = some () := by decide +kernel

/-! ### The Planer and Dovetail -/

/-- Gradients, parameters and momenta of four binary32 values. -/
def tens4 (base : Nat) : List Byte := img 7 0 base 4 true false

def sgd1 : PlaneF :=
  { opt := .sgd, g := fld 6, p := fld 7, off := none, mm := fld 8, vv := none, firstPanel := 0, nPanels := 1, pres := none,
    presClear := false, frz := none, gscale := 0x3F800000, nlr := 0xBF800000, wd := 0, mu := 0, b1 := 0, c1 := 0, b2 := 0,
    c2 := 0, bc1 := 0, bc2 := 0, eps := 0, lambda := 0, roundP := .rne, satP := true, roundS := .rne, satS := true,
    stream := 0, gslotP := 0, gslotM := 0, gslotV := 0, skip := false }

def descs1 : List (Option Stepped) := [some (fld 6), some (fld 7), none, some (fld 8), none]

theorem wit_plane : (do
    let r ← started (qc .s) [3] true false [] [] work
    let ds ← got (planeDescs r.job descs1)
    let j1 := (descs1.filterMap id).foldl (fun j h => j.tableRead (steppedVal j.loops h)) r.job
    guard (planeDecodeOk sgd1 && planeDecodeOk { sgd1 with nPanels := 0 } && planeOperandsOk sgd1 ds && planeWritable ds)
    let (_, j) ← got (planeGauges { sgd1 with nPanels := 0 } ds j1)
    free r j
    let (cfgs, j) ← got (planeGauges sgd1 ds j1)
    let p : PlanerJob :=
      { core := 0, ctx := 1, tag := 7, cmd := some sgd1, descs := descs1.map (descImage j), cfgs := cfgs, zstep := j.zstep,
        loops := j.loops }
    free r { j with held := true, later := true, d := { j.d with planers := mapPut [] 0 [p] j.d.planers } }) = some () := by
  decide +kernel

/-- A held PLANE of the descriptors above. -/
def held1 (f : PlaneF) : PlanerJob :=
  { core := 0, ctx := 1, tag := 7, cmd := some f,
    descs := [tens4 0x10000, tens4 0x10100, [], tens4 0x10200, []], cfgs := [(7, 3, 0), (7, 3, 0)] }

/-- A Planer that holds one PLANE. -/
def planing (p : PlanerJob) (d : Dev) : Dev := { d with planers := [(0, [p])] }

/-- What the next panel of it gives: 0 done, 1 skipped, 2 passed over, 3 its lines taken by another, 4 a deck that cannot
apply; and, but for one done, that its step leaves what PlanerActs says. -/
def panelKind (p : PlanerJob) (d : Dev) : Option Nat := do
  let d := planing p d
  guard (panelReady d 0 p)
  let (f, panel, t) ← panelTens p
  let (present, frozen, j) ← got (match p.mask with
    | some fb => Except.ok (true, fb, planeJob p d)
    | none => panelMasks f panel t.n (planeJob p d))
  let ends := fun (k : Nat) (e : Dev) => if leads (.planerPanel 0) d e then some k else none
  if !present || frozen.all id then ends 2 (panelNext 0 p [] j.d)
  else
    let (lines, j) ← got (glueLinesOf (panelRanges f panel t) j)
    let (taken, e) := takeLines (panelGlue p j.d) lines j.d
    if !taken then ends 3 { e with planers := mapPut [] 0 [{ p with mask := some frozen }] e.planers }
    else if deckCannot e lines then ends 4 (planeFail p { cls := poisonCls } e)
    else
      match ← got (panelWork p f panel t frozen { j with d := e }) with
      | .skipped e => ends 1 (panelNext 0 p [] e)
      | .done _ => some 0

/-- `work` with a not-a-number among the gradients. -/
def workNan : Dev := writeMem false (va 0x10000) (leBytes 4 0x7FC00000) work

theorem wit_panel_done : panelKind (held1 sgd1) work = some 0 := by decide +kernel
theorem wit_panel_skipped : panelKind (held1 { sgd1 with skip := true }) workNan = some 1 := by decide +kernel
theorem wit_panel_absent : panelKind (held1 { sgd1 with pres := some 0x11000 }) work = some 2 := by decide +kernel
theorem wit_panel_conflict :
    panelKind (held1 sgd1) { work with glues := [{ glue1 with phase := .committed, marks := [va 0x10100] }] } = some 3 := by
  decide +kernel

/-- A PLANE whose context is not resident waits before one that is served. -/
theorem wit_panel_order :
    panelReady work 0 { held1 sgd1 with ctx := 2 } = false ∧ panelReady work 0 (held1 sgd1) = true := by decide +kernel

/-- A Dovetail descriptor of kind `kind`, 64 bytes from 0x18000 to 0x19000. -/
def dv (kind len : Nat) : List Byte :=
  leBytes 8 (packFields [(kind, 4), (3, 2)]) ++ leBytes 8 0x18000 ++ leBytes 8 0x19000 ++ leBytes 8 len
    ++ leBytes 8 (if kind ≤ 1 then 1 else 0) ++ leBytes 24 0

/-- `work` with descriptor `bs` at 0x17000. -/
def dvWork (bs : List Byte) : Dev := withMem (memOf (va 0x17000) bs)

def posted (bs : List Byte) : Dev := modChan 0 (fun ch => { ch with posted := [(0x17000, 9)] }) (dvWork bs)

/-- The channel runs descriptor `bs`, in the state `r`. -/
def running (bs : List Byte) (r : DvRun) : Dev :=
  modChan 0 (fun ch => { ch with run := some { r with desc := bs, addr := 0x17000, paused := r.paused } }) (dvWork bs)

theorem wit_dv_post : (do
    let w := modChan 639 (fun ch => { ch with owner := some 1, posted := List.replicate 15 (0, 0) }) work
    let r ← started (qc .s) [3] true false [] [] w
    guard ((chanAt r.job.d 639).owner = some 1 && (chanAt r.job.d 639).posted.length < 16)
    runs (.dvPost (qc .s) 39 15 (2 ^ 48 - 64)) w r { r.job with
      imm := true
      d := modChan 639 (fun ch => { ch with posted := ch.posted ++ [(2 ^ 48 - 64, 7)] }) r.job.d }) = some () := by
  decide +kernel

/-- A beat of the channel whose descriptor of `kind` is in `w`: its access goes through, a read or a write. -/
def beat (kind : Nat) (w : Dev) : Option Nat := do
  let d := dvSettle 0 12 (dvStart 0 [kind] w)
  guard (runKind d 0 = some kind)
  let (ctx, x, r) ← dvReady d 0
  let _ ← got (if dvFetch x r ≠ 0 then fetchLine 0 ctx x r d
    else if kind = 0 then copyLine 0 ctx x r d else sendLine 0 ctx x r d)
  some (if dvFetch x r ≠ 0 then 0 else 1)

theorem wit_dv_copy : beat 0 (posted (dv 0 64)) = some 0
    ∧ beat 0 (running (dv 0 64) { stage := List.replicate 64 (5, false) }) = some 1 := by decide +kernel
theorem wit_dv_send : beat 1 (posted (dv 1 64)) = some 0
    ∧ beat 1 { running (dv 1 64) { stage := List.replicate 64 (5, false) } with tab := { modidValid := true } } = some 1 := by
  decide +kernel

/-- A MINT to descriptor 5 whose image lies at 0x18000. -/
theorem wit_dv_mint : (do
    let bs := (dv 2 0).take 16 ++ leBytes 8 5 ++ (dv 2 0).drop 24
    let w := modChan 0 (fun ch => { ch with posted := [(0x17000, 9)] })
      (withMem (memOf (va 0x17000) bs ++ memOf (va 0x18000) (tens4 0x10000)))
    let d := dvSettle 0 12 (dvStart 0 [2] w)
    let ctx ← chanOwner d 0
    let r ← (chanAt d 0).run
    let x := parseDv r.desc
    guard (x.kind = 2 && !r.halted && r.retryAt.isNone && r.due = [] && r.moved = 0 && x.dst = 5)
    let (bs, e) ← got (mintSource 0 ctx x 5 0 d)
    guard (bs.all (fun b => !b.2))
    let (code, _) ← got (mintAt ctx 5 (bs.map (·.1)) e)
    guard (code = 0)) = some () := by decide +kernel

/-- A RESUME of a halted descriptor, posted twice. -/
theorem wit_dv_control : (do
    let w := modChan 0 (fun ch => { ch with
      posted := [(0x17000, 9), (0x17000, 9)], run := some { desc := dv 0 64, addr := 0x17000, halted := true } }) (dvWork (dv 3 0))
    let ctx ← chanOwner w 0
    let (i, addr, tag, kind) ← nextControl w 0 ctx
    guard (kind = 3)
    let (bs, d) ← got (dvTake 0 ctx addr 64 w)
    guard (dvDescOk d ctx (parseDv bs))
    let d ← got (controlAct 0 ctx 3 d)
    let d ← got (dvEnd 0 ctx { desc := bs, addr := addr, tag := tag } 0 d)
    guard (leads (.resume 0) w (modChan 0 (fun ch => { ch with posted := ch.posted.eraseIdx i }) d))) = some () := by
  decide +kernel

theorem wit_dv_complete : (do
    let w := running (dv 0 64) { moved := 64 }
    let ctx ← chanOwner w 0
    let r ← (chanAt w 0).run
    guard (!r.halted && r.retryAt = none && dvWorkDone (parseDv r.desc) r)
    let d ← got (dvEnd 0 ctx r (chanAt w 0).doneBytes w)
    guard (leads (.dvComplete 0) w (modChan 0 (fun ch => { ch with run := none }) d))) = some () := by decide +kernel

theorem wit_dv_retry : (do
    let w := running (dv 0 64) { retryAt := some 5, paused := false }
    let r ← (chanAt w 0).run
    guard (r.retryAt = some 5 && 5 ≤ nowNs w)
    let d := dvSettle 0 12 (modRun 0 (fun r => { r with retryAt := none }) w)
    guard (leads (.dvRetry 0 none) w (if r.due = [] then dvBeat 0 none d else d))) = some () := by decide +kernel

theorem wit_dv_pace : (do
    let w := running (leBytes 8 0x1000 ++ (dv 0 64).drop 8) { paused := true, pb := leBytes 32 (2 ^ 128 * 0x18000) }
    let _ ← chanOwner w 0
    let r ← (chanAt w 0).run
    guard ((parseDv r.desc).pace ≠ 0 && r.paused && !r.halted && r.due = [])
    guard (leads (.dvPacePoll 0) w (dvSettle 0 8 (modRun 0 (fun r => { r with due := [.peer] }) w)))) = some () := by
  decide +kernel

theorem wit_dv_grant : (do
    let w := posted (dv 0 64)
    let d := (List.range 16).foldl (fun d c => dvSettle c 12 (dvStart c [0, 1] d)) w
    let (c, level) ← dvPick d 0
    guard ((c, level) = (0, 3))) = some () := by
  decide +kernel

/-! ### Engine events and the fabric -/

/-- A command that completes, in service and as a started pass of a switch, and a queue that has waited too long. -/
theorem wit_EngineEvents :
    let q : Dev := modQueue 0 0 (fun x => { x with inflight := [{ tag := 7 }] }) work
    let m : Dev := modCtx 1 (fun x => { x with state := .draining }) (modQueue 0 1 (fun x => { x with inflight := [{}] }) work)
    let w : Dev := modQueue 0 0 (fun x => { x with wait := some { flags := [(1, false)], since := 0 } }) work
    (coreAt q 0).resident = some 1 ∧ (ctxAt q 1).state = .resident ∧ (ctxAt m 1).state = .draining
      ∧ (queueAt q 0 0).inflight = [{ tag := 7 }] ∧ (queueAt m 0 1).inflight = [{}]
      ∧ leads (.commandComplete 0 .l) q (clampMeet 0 (drainQueue 1 0 0 (completeFlight 1 0 0 { tag := 7 } [] q))) = true
      ∧ leads (.commandComplete 0 .m) m (clampMeet 0 (drainQueue 1 0 1 (completeFlight 1 0 1 {} [] m))) = true
      ∧ stallSince (queueAt w 0 0) = some 0 ∧ wdogMs (ctxAt w 1) * 1000000 ≤ nowNs w
      ∧ leads (.qstall 0 .l) w (hangTrigger 1 1 (faultCtx 1 { stallRecord w 1 0 0 with trig := hangFree w } w)) = true := by
  decide +kernel

/-- A line that the deck holds and one that it does not, with a way that is free: read, written in part and whole, and a host
line. -/
theorem wit_DeckEvents :
    let d := deckTouch false 0x40 false up
    let t := deckTake false 0x40 false up
    0x40 < hbmSpan d.hbmc ∧ lineHeld d 0x40 = false ∧ plainAccess [0x40] d = d ∧ plainAccess [0x40] up = up
      ∧ deckHolds d false 0x40 = true ∧ deckHolds up false 0x40 = false
      ∧ hbmLost up 0x40 = false ∧ victimOf up (setKey up false 0x40) = some none ∧ writeLost d false 0x40 = false
      ∧ leads (.deckAccess { deck0 with line := 0x7F }) d (deckTouch false 0x40 false d) = true
      ∧ leads (.deckAccess { deck0 with line := 0x40 }) up (deckFill { deck0 with line := 0x40 } 0x40 t) = true
      ∧ leads (.deckAccess { deck0 with line := 0x40, write := some (5, 1) }) up
        (deckStore false 0x40 5 1 (deckFill { deck0 with line := 0x40 } 0x40 t)) = true
      ∧ leads (.deckAccess { deck0 with line := 0x40, write := some (5, BitVec.allOnes 64) }) up
        (deckStore false 0x40 5 (BitVec.allOnes 64) (deckTake false 0x40 true up)) = true
      ∧ leads (.deckAccess { deck0 with host := true, line := 2 ^ 48 - 1 }) up
        (deckFill { deck0 with host := true } (2 ^ 48 - 64) (deckTake true (2 ^ 48 - 64) false up)) = true := by decide +kernel

/-- A double-bit error of a held line, and errors of the last bench byte and the last joist row. -/
theorem wit_deck_errors :
    let d := deckTouch false 0x40 false up
    let k := homeDeck d.hbmc false 0x40
    leads (.deckAccess { deck0 with line := 0x40, dataErr := some (575, true) }) d
        (deckServe { deck0 with line := 0x40, dataErr := some (575, true) } 0x40
          (fillPoison false 0x40 (raiseFields deckUe (unitCluster k) none [(k, 5), (0x40, 48)] d))) = true
      ∧ meetUpset 159 up (.bench (benchSize - 1) 0 false) ≠ up ∧ meetUpset 159 up (.joist 1023 71 true) ≠ up := by
  decide +kernel

/-- A packet for module `m` with `n` bytes of payload. -/
def pkt (kind rop m n : Nat) : List Byte :=
  packData { kind := kind, rop := rop, dmod := m, dctx := 1, dva := 0x10000, deadline := 1000100000, len := n, payload := List.replicate n 5 }

/-- A routed fabric whose leaf A sends module 9 out of port 2, and this module is 4. -/
def fab : Dev :=
  { work with
    ports := [(0, { state := .routed }), (2, { state := .routed })]
    tab := { modid := 4, modidValid := true, okA := true, leaves := [(9, BitVec.ofNat 32 (packFields [(0, 16), (2, 5), (2, 5), (2, 5), (1, 1)]))] } }

/-- Packet `bs` as it waits after its arrival on port 0. -/
def arrived (bs : List Byte) : Pkt := { bytes := bs, ingress := some 0, at_ := nowNs fab }

theorem wit_packet_in :
    let bs := pkt 0 0 4 64
    64 ≤ bs.length ∧ hcrcOk bs = true ∧ (parseData bs).kind ≤ 2 ∧ lengthOk bs = true
      ∧ (parseData bs).vc = 0 ∧ expired (nowNs fab) (parseData bs).deadline = false
      ∧ (portAt fab 0).state = .routed ∧ (parseData bs).dmod = fab.tab.modid
      ∧ leads (.dataPacketForward 0 bs) fab { fab with fab := { loc := [arrived bs] } } = true := by decide +kernel

theorem wit_packet_through :
    let bs := pkt 0 0 9 64
    hcrcOk bs = true ∧ (parseData bs).dmod ≠ fab.tab.modid
      ∧ route fab (some 0) false 0 false 9 = some (2, 0, false) ∧ carries (portAt fab 2) false = true
      ∧ leads (.dataPacketForward 0 bs) fab (toEgress 2 { arrived bs with bytes := setHop 0 false 1 bs } fab) = true := by
  decide +kernel

theorem wit_egress : (do
    let w := toEgress 2 { bytes := pkt 0 0 9 64 } fab
    let d := dropEgress 2 dropExpired (pktExpired w) w
    let k ← egressPick d 2
    guard (leads (.egressGrant 2) w (egressSend 2 k d) && leads (.packetExpiry 2) w d)) = some () := by decide +kernel

/-- Of two delivered packets the one that has waited beyond 10 µs is dropped. -/
theorem wit_packet_residence :
    let old : Pkt := { bytes := pkt 0 0 4 4, ingress := some 0 }
    let w : Dev := { fab with kt := { fab.kt with state := .acquire }, fab := { loc := [old, arrived (pkt 0 0 4 4)] } }
    leads (.packetResidence 0) w (dropEgress 0 dropResidence (fun k => decide (k.at_ + 10000 < nowNs w))
      (dropWaiting 0 dropResidence old { w with fab := { loc := [arrived (pkt 0 0 4 4)] } })) = true := by decide +kernel

/-- A control packet for module `m`. -/
def ctl (typ m : Nat) (b : MgBody) : List Byte := packCtrl { typ := typ, dmod := m, deadline := 1000000000, body := packMg b }

theorem wit_control_packet :
    let bs := ctl 0x11 9 {}
    let c := parseCtrl bs
    let k : Pkt := { bytes := setHop 5 c.dlx 1 bs, ctrl := true, ingress := some 0, vc := 5, inVc := 5, at_ := nowNs fab }
    linkUp (portAt fab 0) = true ∧ bs.length = 64 ∧ ctrlCrcOk bs = true ∧ c.typ = 0x11 ∧ c.loc = false ∧ mgHere fab c = false
      ∧ expired (nowNs fab) (ctrlDeadline (nowNs fab) c.deadline) = false
      ∧ (c.srcrt = false ∧ (route fab (some 0) c.epoch 5 c.dlx c.dmod).map (·.1) = some 2)
      ∧ carries (portAt fab 0) false = true ∧ carriesPkt (portAt fab 2) k = true
      ∧ leads (.controlPacketForward 0 bs) fab (toEgress 2 k fab) = true := by decide +kernel

/-- A source-routed one takes the port of its route. -/
theorem wit_control_routed :
    let bs := packCtrl { typ := 0x10, srcrt := true, deadline := 1000000000, body := packMg { routeLen := 1, route := 2 } }
    let c := parseCtrl bs
    let k : Pkt := { bytes := setHop 5 c.dlx 1 bs, ctrl := true, ingress := some 0, vc := 5, inVc := 5, at_ := nowNs fab }
    expired (nowNs fab) (ctrlDeadline (nowNs fab) c.deadline) = false ∧ ctrlCrcOk bs = true ∧ c.srcrt = true
      ∧ hopPort (parseMg c.body) c.hops = 2 ∧ mgHere fab c = false ∧ carriesPkt (portAt fab 2) k = true
      ∧ leads (.controlPacketForward 0 bs) fab (toEgress 2 k fab) = true := by decide +kernel

/-- `fab` with a delivered packet. -/
def local_ (bs : List Byte) : Dev := { fab with fab := { loc := [{ bytes := bs, ingress := some 0 }] } }

/-- What DeliveredPacketsAct asks of a packet of the rows `i` that does the work `work`. -/
def delivers (i : Instr) (sel : DataPkt → Bool) (w : Pkt → DataPkt → Dev → Option Dev) (bs : List Byte) : Option Unit := do
  let k ← nextLocal sel (local_ bs)
  guard (dataCrcOk k.bytes && !expired (nowNs fab) (parseData k.bytes).deadline)
  let d ← w k (parseData k.bytes) { local_ bs with fab := {} }
  guard (leads i (local_ bs) (freeBuffer k.ingress k.inVc (flitsOf k.bytes) d))

theorem wit_request : delivers .request (fun p => p.kind == 0 && p.rop != 10) arrivePacket (pkt 0 0 4 4) = some () := by
  decide +kernel

theorem wit_collective :
    delivers .collective (fun p => p.kind == 2 && p.rop != 10) arrivePacket (pkt 2 0 4 4) = some () := by decide +kernel

theorem wit_reply : delivers .reply (fun p => p.kind == 1) arriveReply
    (packData { kind := 1, sctx := 1, dctx := 1, len := 0, deadline := 1000100000 }) = some () := by decide +kernel

theorem wit_meta : delivers .metaCombine (fun p => p.kind != 1 && p.rop == 10) arrivePacket
    (packData { kind := 0, rop := 10, dctx := 1, dva := 0x1000, len := 32, deadline := 1000100000
                payload := List.replicate 32 0 }) = some () := by decide +kernel

theorem wit_TransfersExpire :
    let t : Track := { smod := 3, sctx := 2, xid := 5, total := some 9, count := 1 }
    let d : Dev := { fab with fab := { tracks := [t] }, kt := { now := 10 ^ 12 * 65536 } }
    (d.fab.tracks.find? (fun t => t.isFor 3 2 5)) = some t ∧ xferOver t (nowNs d) = true
      ∧ leads (.xferTimeout 3 2 5) d (kzArrival t true (raiseFields xferTimeoutCls unitSwitch (some 0)
        [(3, 16), (2, 12), (5, 32), (1, 32), (9, 32)] (putTrack { t with tomb := some (nowNs d + 100000) } d))) = true := by
  decide +kernel

theorem wit_flag_tombstone :
    let d := modPflag (19 * 4096 + 4095) (fun f => { f with tomb := true, tombAt := 5 }) work
    (pflagAt d (19 * 4096 + 4095)).tomb = true ∧ (pflagAt d (19 * 4096 + 4095)).tombAt + 100000 ≤ nowNs d
      ∧ leads (.flagTombExpiry 19 4095) d (modPflag (19 * 4096 + 4095) (fun f => { f with tomb := false }) d) = true := by
  decide +kernel

/-! ### Keystone time, tables and links -/

/-- A module of which port 3 is up, and which has a parent there. -/
def timed : Dev :=
  { up with
    ports := [(3, { state := .localSt, marks := 64, lastMark := 999999000, rootSeqAt := 999999000, offer := { hops := 1, prio := 5 } })]
    kt := { up.kt with parent := some 3 } }

theorem wit_time_marks :
    let bs := packCtrl { typ := 1, loc := true, body := List.replicate 48 0 }
    let d' := modPort 3 (markPort (parseCtrl bs).body (stamp timed) (nowNs timed)) timed
    let d := reselect 0 d'
    linkUp (portAt timed 3) = true ∧ (portAt timed 3).txStamps = [] ∧ bs.length = 64 ∧ ctrlCrcOk bs = true
      ∧ leads (.timeMark 3 bs) timed
        (if d.kt.parent = some 3 && decide ((portAt d' 3).marks ≠ (portAt timed 3).marks)
          then lockState 3 (portAt d 3).theta (servo (portAt d 3).theta d) else d) = true := by
  decide +kernel

theorem wit_time_states :
    let d : Dev := { timed with kt := { timed.kt with state := .holdover } }
    let e : Dev := { timed with ports := [] }
    eligible timed 3 = true ∧ eligible e 3 = false ∧ e.kt.parent = some 3
      ∧ leads (.portIneligible 3) e (reselect 0 e) = true ∧ leads .holdoverLimit d (holdBays d) = true
      ∧ d.kt.holdSince + d.kt.holdMs * 1000000 ≤ nowNs d ∧ bestPort { d with ports := [] } = none := by decide +kernel

theorem wit_ChangesApply :
    let c : Change := { count := 1, t := 1000000000, staged := [(5, true)] }
    let p : ClockPlan := { t := 1000000000, targets := List.replicate 20 42, seqNo := 1 }
    c.t ≤ nowNs up ∧ c.count ≤ c.staged.length ∧ { c with count := 2 }.staged.length < 2 ∧ p.t ≤ nowNs up
      ∧ leads .ttApply { up with tab := { ttChange := some c, staging := [(5, 7)] } }
        { up with tab := { live := [(5, 7)], staging := [(5, 7)] } } = true
      ∧ leads .rtApply { up with tab := { rtChange := some c } }
        { up with tab := { okA := false, okB := true, epoch := true, flipAt := some 1000000000 } } = true
      ∧ leads .ttApply { up with tab := { ttChange := some { c with count := 2 } } }
        (raiseFields ttIncomplete unitTable none (changeFields { c with count := 2 }) up) = true
      ∧ leads .rtApply { up with tab := { rtChange := some { c with count := 2 } } }
        (raiseFields rtIncomplete unitTable none (changeFields { c with count := 2 }) up) = true
      ∧ leads .clockPlanApply { up with pwr := { up.pwr with coord := true, plan := some p } }
        (pushComp 4096 { seqNo := 1, kind := 0x23, error := 0 }
          { up with pwr := { up.pwr with coord := true, clocks := planClocks p.targets up.pwr.clocks } }) = true := by
  decide +kernel

theorem wit_ClockPlanSetsNamedClocks : (42 :: List.replicate 19 63).length = 20 ∧ mapOk 70 [(0, 28), (19, 69)] = true := by
  decide

theorem wit_LinksTrain :
    fabricOn timed = true ∧ (portAt timed 3).kept = false ∧ linkUp (portAt timed 3) = true
      ∧ 4 ≤ popCount 8 0x0F ∧ lanesWidth 0x0F = some true ∧ lanesWidth 0xFF = some false
      ∧ 4 ≤ popCount 8 0x3C ∧ lanesWidth 0x3C = none ∧ linkUp (portAt timed 4) = false ∧ (portAt timed 4).state = .dark
      ∧ leads (.linkDetect 4 0x0F 9 17) timed
        (modPort 4 (fun p => { p with peer := [] }) (enterLocal 4 true (saveCoef 4 9 17 timed))) = true
      ∧ leads (.linkDetect 4 0x3C 9 17) timed (modPort 4 (fun p => { p with state := .training }) timed) = true
      ∧ leads (.linkRetrain 3 5 0xFF) timed (leaveLink 3 .retrain 5 timed) = true
      ∧ leads (.linkDown 3) timed (leaveLink 3 .retrain causeDown timed) = true := by
  decide +kernel

theorem wit_retrain_ends :
    let d : Dev := { up with ports := [(3, { state := .retrain })] }
    (portAt d 3).state = .retrain ∧ lanesWidth 0xF0 = some true ∧ fabricOn d = true ∧ (portAt d 3).kept = false
      ∧ leads (.linkRetrain 3 5 0xF0) d (enterLocal 3 true (saveCoef 3 0 0 d)) = true := by decide +kernel

/-- A link-control flit. -/
def lc (bs : List Byte) : List Byte := padTo 0x38 bs ++ leBytes 2 (crc16 (padTo 0x38 bs)) ++ leBytes 6 0

theorem wit_link_idents :
    let bs := packCtrl { typ := 2, loc := true, body := leBytes 8 9 ++ leBytes 8 (packFields [(0, 24), (7, 8)]) ++ leBytes 32 0 }
    let b := (parseCtrl bs).body
    let w := modPort 3 (fun p => { p with peer := leBytes 48 8 }) timed
    let e := modPort 3 (fun p => { p with peer := b }) (freeBuffer (some 3) 5 1 w)
    identRoom timed 3 = true ∧ (portAt timed 3).identOut ≠ identBody {} timed 3 ∧ bs.length = 64 ∧ ctrlCrcOk bs = true ∧ (portAt timed 3).peer = []
      ∧ identClash {} timed b = false
      ∧ leads (.ident 3 bs) timed (tryRouted {} 3 (modPort 3 (fun p => { p with peer := b }) (freeBuffer (some 3) 5 1 timed))) = true
      ∧ (portAt w 3).peer ≠ [] ∧ leAt (portAt w 3).peer 0 8 ≠ leAt b 0 8
      ∧ leads (.ident 3 bs) w
        (identRecord 3 b (modPort 3 (fun p => { p with routedBit := false }) (leaveRouted 3 causeIdent e))) = true := by
  decide +kernel

theorem wit_link_flits :
    let credit := lc (leBytes 1 1 ++ leBytes 7 0 ++ leBytes 12 0)
    let exceeded := lc (leBytes 1 1 ++ leBytes 7 0 ++ leBytes 12 1)
    let w : Dev := { up with ports := [(3, { state := .localSt, ownFreed := [1, 0, 0, 0, 0, 0] })] }
    lcOk credit = true ∧ leAt credit 0 1 = 1 ∧ lcOk exceeded = true ∧ vcBuffer 0 < (0 + 65536 - leAt exceeded 8 2) % 65536
      ∧ lcOk (lc (leBytes 1 2)) = true ∧ leAt (lc (leBytes 1 2)) 0 1 = 2 ∧ lcOk (lc (leBytes 1 3)) = true
      ∧ leAt (lc (leBytes 1 3)) 0 1 = 3 ∧ (portAt w 3).ownFreed ≠ (portAt w 3).told
      ∧ leads (.credit 3 credit) w (modPort 3 (fun p => { p with freed := List.replicate 6 0 }) w) = true
      ∧ leads (.credit 3 exceeded) w (leaveLink 3 .retrain causeCredit (raiseFields fabCredit (unitPort 3) none
        [(3, 8), (0, 3), (1, 16), (0, 16)] w)) = true
      ∧ leads (.retrain 3 (lc (leBytes 1 2))) w (leaveLink 3 .retrain causePeer w) = true
      ∧ leads (.lanes 3 (lc (leBytes 1 3))) w (modPort 3 (fun p => { p with laneOk := 0 }) w) = true := by decide +kernel

/-- A frame of the bytes of `f`. -/
abbrev frameOf (f : Nat → Byte) : List Byte := (List.range 544).map f

theorem getD_range_map {α : Type} (n : Nat) (f : Nat → α) (x : α) (j : Nat) (h : j < n) :
    ((List.range n).map f).getD j x = f j := by
  simp [List.getD_eq_getElem?_getD, h]

theorem frameWord_frameOf (f : Nat → Byte) (i : Nat) (h : i < 4) :
    frameWord (frameOf f) i = (List.range 136).map (fun k => (f (4 * k + i)).toNat) :=
  List.map_congr_left fun k hk => by
    have := List.mem_range.1 hk
    rw [getD_range_map 544 f 0 _ (by omega)]

/-- How a frame decodes whose four codewords do. -/
theorem decodeFrame_frameOf (f : Nat → Byte) (w : Nat → List Nat)
    (h : ∀ i < 4, rsDecode ((List.range 136).map (fun k => (f (4 * k + i)).toNat)) = some (w i)) :
    ∃ out, decodeFrame (frameOf f) = some (out,
      (List.range 544).filter (fun j => BitVec.ofNat 8 (([w 0, w 1, w 2, w 3].getD (j % 4) []).getD (j / 4) 0) != f j)) := by
  have e : ∀ i < 4, rsDecode (frameWord (frameOf f) i) = some (w i) := fun i hi => by
    rw [frameWord_frameOf f i hi, h i hi]
  unfold decodeFrame
  simp only [e 0 (by omega), e 1 (by omega), e 2 (by omega), e 3 (by omega)]
  generalize [w 0, w 1, w 2, w 3] = ws
  simp only [frameOf]
  generalize 544 = n
  exact ⟨_, congrArg (fun l => some (_, l)) (List.filter_congr fun j hj => by
    rw [getD_range_map n f 0 j (List.mem_range.1 hj), getD_range_map n _ 0 j (List.mem_range.1 hj)])⟩

theorem frame_zero : rsDecode (List.replicate 136 0) = some (List.replicate 136 0) := by decide +kernel
theorem frame_one : rsDecode ((List.replicate 136 0).set 2 1) = some (List.replicate 136 0) := by decide +kernel

/-- The frame of idle slots decodes as it is. -/
theorem wit_FramesArrive : ∃ out, decodeFrame (frameOf (fun _ => 0)) = some (out, []) := by
  obtain ⟨out, h⟩ := decodeFrame_frameOf (fun _ => 0) (fun _ => List.replicate 136 0) fun i _ =>
    (congrArg rsDecode (by decide +kernel : (List.range 136).map (fun _ => (0 : Byte).toNat) = List.replicate 136 0)).trans
      frame_zero
  refine ⟨out, h.trans (congrArg (fun l => some (out, l)) (List.filter_eq_nil_iff.2 fun j hj => ?_))⟩
  · have := List.mem_range.1 hj
    have hw : ∀ k < 4, ([List.replicate 136 0, List.replicate 136 0, List.replicate 136 0, List.replicate 136 0].getD k
        ([] : List Nat)) = List.replicate 136 0 := by decide +kernel
    rw [hw _ (Nat.mod_lt _ (by omega))]
    have hr : (List.replicate 136 0).getD (j / 4) 0 = 0 := by
      rw [List.getD_eq_getElem?_getD, List.getElem?_replicate, if_pos (by omega)]; rfl
    rw [hr]; decide

/-- With one wrong byte it is corrected there. -/
theorem wit_frame_corrected :
    ∃ out l, decodeFrame (frameOf (fun j => if j = 9 then 1 else 0)) = some (out, l) ∧ 9 ∈ l := by
  have w : ∀ i < 4, (List.range 136).map (fun k => ((fun j => if j = 9 then 1 else 0 : Nat → Byte) (4 * k + i)).toNat)
      = if i = 1 then (List.replicate 136 0).set 2 1 else List.replicate 136 0 := by decide +kernel
  obtain ⟨out, h⟩ := decodeFrame_frameOf (fun j => if j = 9 then 1 else 0) (fun _ => List.replicate 136 0)
    (fun i hi => by
      rw [w i hi]
      split
      · exact frame_one
      · exact frame_zero)
  exact ⟨out, _, h, List.mem_filter.2 ⟨List.mem_range.2 (by omega), by decide +kernel⟩⟩

/-- With four wrong bytes in a codeword it cannot be corrected. -/
theorem wit_frame_bad :
    decodeFrame (frameOf (fun j => if j = 9 then 1 else if j = 13 then 1 else if j = 17 then 2 else if j = 29 then 1 else 0))
      = none := by
  have h : rsDecode (frameWord (frameOf (fun j =>
      if j = 9 then 1 else if j = 13 then 1 else if j = 17 then 2 else if j = 29 then 1 else 0)) 1) = none := by
    rw [frameWord_frameOf _ _ (by omega), (by decide +kernel : (List.range 136).map _
      = ((((List.replicate 136 0).set 2 1).set 3 1).set 4 2).set 7 1)]
    decide +kernel
  unfold decodeFrame
  rw [h]
  split <;> first | rfl | simp_all

/-! ### Management -/

/-- A management request for this module on port 0: what ManagementServed asks of it, and what its step leaves. -/
def mgmtOk (i : Instr) : Bool :=
  match mgmtRow i with
  | some (port, bs, types, want) =>
    port.all (fun n => decide (n < 18) && linkUp (portAt fab n)) && bs.length == 64 && ctrlCrcOk bs
      && types.contains (parseCtrl bs).typ && want (parseMg (parseCtrl bs).body) && mgHere fab (parseCtrl bs)
      && !expired (nowNs fab) (ctrlDeadline (nowNs fab) (parseCtrl bs).deadline)
      && leads i fab (freeBuffer port 5 1 (mgDeliver {} (parseCtrl bs) bs fab))
  | none => false

theorem wit_ManagementServed :
    [Instr.mgmtWrite (some 0) (ctl 0x10 4 {}), .mgmtRead none (ctl 0x11 4 {}), .mgmtReply (some 0) (ctl 0x12 4 {}),
      .mgmtAssign (some 0) (ctl 0x13 4 {}), .portRouted (some 0) (ctl 0x10 4 { addr := 0x2000 }),
      .portRetrain (some 0) (ctl 0x10 4 { addr := 0x2088, data := 2 }), .rtDecl (some 0) (ctl 0x10 4 { addr := 0x4000 }),
      .ttDecl (some 0) (ctl 0x10 4 { addr := 0x4010 }), .routingEntryStage (some 0) (ctl 0x10 4 { addr := 0x18FFFF8 }),
      .timetableStage (some 0) (ctl 0x10 4 { addr := 0x211FFF8 })].all mgmtOk = true := by decide +kernel

theorem wit_ManagementEffects :
    winRead {} fab 0x3000 ≠ none ∧ (parseMg (parseCtrl (ctl 0x10 4 { addr := 0x2088 })).body).addr = 0x2000 + 8 * 17
      ∧ (parseMg (parseCtrl (ctl 0x10 4 { addr := 0x2088 })).body).wide = false := by decide +kernel

theorem wit_FabricManagerActs :
    let d : Dev := { up with pier := { fmBusy := [(511, 9, 5)] } }
    regsOpen up = true ∧ up.pier.fmBusy = [] ∧ regsOpen d = true ∧ d.pier.fmBusy ≠ []
      ∧ d.pier.fmBusy.find? (fun r => r.1 == 511) = some (511, 9, 5) ∧ 5 + 1000000 ≤ nowNs d
      ∧ leads (.fmCmd 1) d { d with pier := { d.pier with fmOverrun := true } } = true
      ∧ leads (.fmReplyTimeout 511) d (attnSet 11
        (hostPut (0x8000 + 64 * 511) (packCtrl { typ := 0x12, body := packMg { seqNo := 9, op := 2, status := 0xFF } })
          { d with pier := { fmDone := true } })) = true := by decide +kernel

/-! ### Rings, descriptors and contexts -/

/-- A descriptor as the host writes it. -/
def sd (kind group : Nat) (w : Nat) : List Byte := leBytes 8 (packFields [(kind, 8), (group, 2), (0, 22), (77, 32)]) ++ leBytes 56 w

/-- Context 1 with a live ring, as `r` changes it, over host memory `m`. -/
def ringWork (n : Nat) (m : List Host.Cell) (r : Ring → Ring) : Dev :=
  { work with
    host := m
    hostp := { work.hostp with
      rings := [(n, r { live := true, sqBase := 0x1000, sqLog2 := 4, cqBase := 0x2000, cqLog2 := 4, db := 0x3000 })] } }

def ringHas (n : Nat) (l : List (List Byte)) : Dev := ringWork n [] (fun r => { r with taken := l.map parseSd })

theorem wit_doorbell :
    let d := ringWork 4096 (memOf 0x3000 (leBytes 4 16)) (fun x => { x with snooped := true })
    let x := ringAt d 4096
    x.live = true ∧ x.snooped = true ∧ x.halted = false ∧ d.hostp.link = true ∧ linePoisoned d true x.db = false
      ∧ (BitVec.ofNat 32 (readMemLe d true x.db 4) - x.sqHead).toNat ≤ 2 ^ x.sqLog2
      ∧ (x.sqTail - x.sqHead).toNat ≤ (BitVec.ofNat 32 (readMemLe d true x.db 4) - x.sqHead).toNat
      ∧ leads (.doorbellReread 4096) d
        (modRing 4096 (fun x => { x with sqTail := 16, snooped := false, cqHead := 0, stall := false }) d) = true := by
  decide +kernel

theorem wit_descriptor_take :
    let d := ringWork 1 (memOf 0x1000 (sd 1 0 0)) (fun x => { x with sqTail := 1 })
    let e := ringWork 1 [] (fun x => { x with sqTail := 17, sqHead := 16 })
    let x := ringAt d 1
    d.pwr.phase = .ready ∧ d.hostp.link = true ∧ d.hostp.reread = false ∧ x.live = true ∧ x.halted = false ∧ x.drop = false
      ∧ x.sqHead ≠ x.sqTail ∧ (x.sqHead - x.cqHead).toNat < 2 ^ x.cqLog2 ∧ linePoisoned d true 0x1000 = false
      ∧ leads (.descriptorTake 1) d (settleRing 1 (kzSubmit 1 1 (parseSd (sd 1 0 0))
        (modRing 1 (fun x => { x with taken := [parseSd (sd 1 0 0)], sqHead := 1 }) d))) = true
      ∧ 2 ^ (ringAt e 1).cqLog2 ≤ ((ringAt e 1).sqHead - (ringAt e 1).cqHead).toNat ∧ (ringAt e 1).sqHead ≠ (ringAt e 1).sqTail
      ∧ leads (.descriptorTake 1) e (attnSet 3 (modRing 1 (fun x => { x with stall := true }) e)) = true := by
  decide +kernel

theorem wit_completion :
    let d := ringWork 1 [] (fun x => { x with comps := [{ seqNo := 77, kind := 1 }] })
    let b := compBytes (attnSet 0 d) (ringAt d 1) { seqNo := 77, kind := 1 }
    leads (.completionRecord 1) d
      (settleRing 1 (hostPut b.1 b.2 (modRing 1 (fun x => { x with comps := [], cqWritten := 1 }) (attnSet 0 d)))) = true := by
  decide +kernel

/-- The outcome of the front descriptor: its code, 0 for none. -/
def took (kind ring : Nat) (d : Dev) : Option Nat := do
  let x ← startable ring kind d
  match (takeMember false ((ringCtx ring).getD 0) x d).1 with
  | .ok _ => some 0
  | .err c => some c
  | .wait => none

theorem wit_simple_descriptors :
    took 0x01 4096 (ringHas 4096 [sd 1 0 0]) = some 0 ∧ took 0x01 1 (ringHas 1 [sd 1 0 1]) = some hostField
      ∧ took 0x11 1 (ringHas 1 [sd 0x11 0 (2 + 2 ^ 15)]) = some 0 ∧ took 0x12 1 (ringHas 1 [sd 0x12 0 (2 + 2 ^ 15)]) = some 0
      ∧ took 0x14 1 (ringHas 1 [sd 0x14 0 (2 ^ 14)]) ≠ some 0 ∧ took 0x17 1 (ringHas 1 [sd 0x17 0 0x10000]) = some 0 := by
  decide +kernel

theorem wit_xlate_flush : (do
    let d := ringHas 1 [sd 0x18 0 0x10000]
    let x ← startable 1 0x18 d
    guard (!descBad x && bitsOf x.word 111 64 + bitsOf x.word 191 128 ≤ 2 ^ 48)
    guard (leads (.xlateFlush 1) d (settleRing 1 (complete 1 x 0 0 (popTaken 1 1
      (flushRange 1 (bitsOf x.word 111 64) (bitsOf x.word 191 128) d)))))) = some () := by decide +kernel

theorem wit_flag_wait : (do
    let w := ringHas 1 [sd 0x13 0 0]
    let d := lookAll 1 1 w
    let x ← startable 1 0x13 d
    guard (!descBad x && longCount d 1 < 64)
    let (code, e) ← lookWait 1 x d
    guard (leads (.flagWait 1) w (settleRing 1 (complete 1 x code 0 (popTaken 1 1 e))))
    let w := ringHas 1 [sd 0x13 0 1]
    let d := lookAll 1 1 w
    let x ← startable 1 0x13 d
    guard ((lookWait 1 x d).isNone && leads (.flagWait 1) w
      (settleRing 1 (modRing 1 (fun r => { r with waiting := r.waiting ++ [x] }) (popTaken 1 1 d))))) = some () := by
  decide +kernel

theorem wit_launch : (do
    let d := ringHas 1 [sd 0x10 0 0x10000]
    let x ← startable 1 0x10 d
    guard (!descBad x && bitsOf x.word 111 64 % 64 = 0 && longCount d 1 < 64)
    match startLaunch 1 1 x d with
    | .ok e => guard (leads (.launch 1) d (settleRing 1 (popTaken 1 1 e)))
    | _ => none) = some () := by decide +kernel

/-- A launch whose one queue is not running. -/
theorem wit_launch_start :
    let l : Launch := { seqNo := 77, ring := 1, start := some (1000000000 * 65536), entries := [(0, 0x8000)], left := [0] }
    let d := modQueue 0 0 (fun x => { x with running := false }) (modCtx 1 (fun x => { x with launches := [l] }) work)
    let l' := { l with begun := true, late := launchLate d l, first := d.kt.now, entries := [] }
    let e := modCtx 1 (fun x => { x with launches := [l'] }) (startQueue d l (1000000000 * 65536) (0, 0x8000))
    (ctxAt d 1).launches.find? (fun l => l.seqNo == 77 && (!l.begun || l.entries != [])) = some l ∧ l.begun = false
      ∧ (ctxAt d 1).state = .resident ∧ launchReady d 1 l = true ∧ (queueAt d 0 0).running = false ∧ l'.late = false
      ∧ leads (.launchStart 1 77) d (kzFor 3 1 77 1 (sm3Bytes l.table) e) = true := by decide +kernel

/-- A group of three that all take effect, with no line of its own. -/
theorem wit_group : (do
    let d := ringHas 1 [sd 0x01 1 0, sd 0x11 2 (2 + 2 ^ 15), sd 0x12 3 (1 + 2 ^ 15)]
    let (xs, good) ← groupFront 1 d
    guard (xs.length = 3 && groupError 1 xs good = 0 && groupReady d 1)
    let lines ← groupLines 1 d xs
    let (taken, e) := takeLines (groupGlue 1 d) lines d
    guard (taken && !deckCannot e lines)
    let (codes, e, _) ← runMembers 1 xs e e []
    guard (codes.all (· == 0))
    let f := settleRing 1 (popTaken 1 3 (groupCapture 1 xs (endGlue (hostGlue 1) e)))
    guard (leads (.submissionGroup 1) d (startLaunches 1 1 [] (xs.foldl (fun d x => complete 1 x 0 0 d) f)))) = some () := by
  decide +kernel

/-- One whose last member fails, and one of a kind that no group takes. -/
theorem wit_group_fails : (do
    let d := ringHas 1 [sd 0x01 1 0, sd 0x14 3 (2 ^ 14)]
    let (xs, good) ← groupFront 1 d
    guard (groupError 1 xs good = 0 && groupReady d 1)
    let lines ← groupLines 1 d xs
    let (taken, e) := takeLines (groupGlue 1 d) lines d
    guard (taken && !deckCannot e lines)
    let (codes, _, base) ← runMembers 1 xs e e []
    guard (codes.any (· != 0) && !codes.contains glueSpace)
    guard (leads (.submissionGroup 1) d (groupFails 1 (if codes.contains poisonCls then 7 else 9) xs codes base))
    let d := ringHas 1 [sd 0x01 1 0, sd 0x13 3 0]
    let (xs, good) ← groupFront 1 d
    guard (groupError 1 xs good ≠ 0 && leads (.submissionGroup 1) d (groupFails 1 9 xs (xs.map (fun _ => groupError 1 xs good))
      (groupRecord 1 (groupError 1 xs good) (xs.headD {}) d)))) = some () := by decide +kernel

/-- One that writes a line which a committing glue-up holds: it stays open. -/
theorem wit_group_waits : (do
    let d := { ringHas 1 [sd 0x01 1 0, sd 0x17 3 0x10000] with glues := [{ glue1 with phase := .committed, marks := [va 0x10000] }] }
    let (xs, good) ← groupFront 1 d
    guard (groupError 1 xs good = 0 && groupReady d 1)
    let lines ← groupLines 1 d xs
    let (taken, e) := takeLines (groupGlue 1 d) lines d
    guard (!taken && leads (.submissionGroup 1) d e)) = some () := by decide +kernel

/-- The record of a context that asks for core 5. -/
def ctxImg : List Byte :=
  leBytes 24 0 ++ leBytes 8 0x200000 ++ leBytes 8 0x300000 ++ leBytes 8 0x300000 ++ leBytes 8 (2 ^ 33 * 16) ++ leBytes 8 0
    ++ leBytes 8 0x10000 ++ leBytes 8 0x400000 ++ leBytes 24 (2 ^ 5) ++ leBytes 152 0

set_option maxRecDepth 20000 in
theorem wit_ctx_create :
    let d := { ringHas 4096 [sd 0x20 0 (2 + 2 ^ 64 * 0x100000)] with host := memOf 0x100000 ctxImg }
    (startable 4096 0x20 d).map (fun x => (descBad x, bitsOf x.word 75 64, bitsOf x.word 175 128)) = some (false, 2, 0x100000)
      ∧ (firstPoison d true 0x100000 256).isSome = false ∧ readMem d true 0x100000 256 = ctxImg
      ∧ createError {} d 2 ctxImg (parseCtx ctxImg) = 0 ∧ (installCtx 2 ctxImg (parseCtx ctxImg) d).isSome = true := by
  decide +kernel

theorem wit_ctx_commands :
    (startable 4096 0x21 (ringHas 4096 [sd 0x21 0 1])).map (fun x => (descBad x, bitsOf x.word 75 64)) = some (false, 1)
      ∧ rangeHeld work ctx1.flagBase (4 * ctx1.flagCount) = false
      ∧ (startable 4096 0x22 (ringHas 4096 [sd 0x22 0 (1 + 2 ^ 31)])).map (fun x => (descBad x, bitOf x.word 95)) = some (false, true)
      ∧ (ctxAt work 1).state = .resident := by decide +kernel

theorem wit_clock_plan : (do
    let d := ringHas 4096 [sd 0x23 0 (1000341504 + 2 ^ 64 * (2 ^ 120 - 1))]
    let x ← startable 4096 0x23 d
    guard (!descBad x && d.pwr.plan = none && applyTimeOk d (bitsOf x.word 127 64))
    let ts := (List.range 20).map (fun k => bitsOf x.word (133 + 6 * k) (128 + 6 * k))
    guard (ts.all (fun y => y = 63) && leads .clockPlan d (settleRing 4096 (popTaken 4096 1
      { d with pwr := { d.pwr with plan := some ⟨bitsOf x.word 127 64, ts, x.seqNo⟩ } })))) = some () := by decide +kernel

theorem wit_preempt :
    let d := modCtx 2 (fun _ => { ctx1 with state := .idle, wants := true, prio := 3 }) work
    let free := modCtx 2 (fun _ => { ctx1 with state := .idle, wants := true, cores := 2 }) work
    (ctxAt d 2).wants = true ∧ ctxWaits (ctxAt d 2) = true ∧ d.hostp.switch = none ∧ mustYield d 2 = false
      ∧ ((coresOf (ctxAt d 2)).filterMap (fun c => (coreAt d c).resident)).eraseDups = [1]
      ∧ (ctxAt d 1).state = .resident ∧ (ctxAt d 1).prio < (ctxAt d 2).prio
      ∧ leads (.priorityPreempt 2) d (switchBegin 1 (some 2) none d) = true
      ∧ ((coresOf (ctxAt free 2)).filterMap (fun c => (coreAt free c).resident)).eraseDups = [] := by decide +kernel

/-- A drained context that nothing keeps from its save. -/
theorem wit_switch_done :
    let d := modCtx 1 (fun x => { x with state := .draining })
      { work with hostp := { work.hostp with switch := some { out := some 1, seqNo := some 77 } } }
    d.hostp.switch = some { out := some 1, inn := none, seqNo := some 77 } ∧ stillDrains d 1 = false
      ∧ (ctxAt d 1).state = .draining
      ∧ (leaveCores 1 { d with hostp := { d.hostp with switch := none } }).isSome = true := by decide +kernel

/-! ### Host link, start-up, power and pins -/

theorem wit_HostLinkMoves :
    let d : Dev := { up with hostp := {} }
    d.hostp.link = false ∧ hostLinkAllowed d = true ∧ linkModeOk 4 16 false = true ∧ linkModeOk 16 64 true = true
      ∧ up.hostp.link = true ∧ linkModeOk 8 32 up.hostp.cxl31 = true
      ∧ up.pwr.phase = .ready ∧ up.hostp.hdmBase % 2 ^ 28 = 0 ∧ up.hostp.hdmSize % 2 ^ 28 = 0
      ∧ 63887638528 % 2 ^ 28 = 0 ∧ 2 ^ 28 + 63887638528 ≤ hbmSpan up.hbmc
      ∧ leads (.hostLinkTraining 16 64 true) d
        (hostLinkRises { d with hostp := { width := 16, rate := 64, cxl31 := true } }) = true
      ∧ leads .hostLinkUp d (hostLinkRises (raise hostLinkCls unitHost none 0 0 d)) = true
      ∧ leads (.hostLink 8 32) up
        (raise hostLinkCls unitHost none 0 0 { up with hostp := { up.hostp with width := 8, rate := 32 } }) = true
      ∧ leads .hdmCommit up { up with hostp := { up.hostp with hdmCommitted := true } } = true := by decide +kernel

/-- A window of the first 256 MiB, and a dirty host line in its deck. -/
theorem wit_HostAccessesAct :
    let d : Dev := { up with hostp := { up.hostp with hdmBase := 0, hdmSize := 2 ^ 28, hdmCommitted := true } }
    let a := 2 ^ 28 - 1
    let l := 2 ^ 28 - 64
    let h := deckDirty true 64 (deckTake true 64 false up)
    let dark : Dev := { up with hostp := {} }
    inWindow d l = true ∧ lineHeld d l = false ∧ a / 64 * 64 = l ∧ plainAccess [l] d = d
      ∧ leads (.windowRead a) d (deckTake false l false d) = true
      ∧ leads (.windowWrite a 5 3) d (deckStore false l 5 3 d) = true
      ∧ (deckLine h true 64).isSome = true ∧ (deckLine h true 64).all (·.dirty) = true ∧ (deckLine up true 64).isSome = false
      ∧ leads (.hostSnoop 64 none) up { up with hostp := { up.hostp with memReply := 0, memPoison := false } } = true
      ∧ leads (.hostSnoop 64 (some (5, 1))) h (hostStore 64 5 1 (deckEvict ((deckLine h true 64).getD {}) h)) = true
      ∧ leads (.hostSnoop 64 none) dark dark = true
      ∧ leads (.hostSnoop 64 (some (5, 1))) dark (hostStoreDark 64 5 1 dark) = true
      ∧ leads (.hostAccessTimeout 64 3 false) up
        (raiseHostMem 64 3 (fillPoison true 64 (deckTake true 64 false up))) = true
      ∧ leads (.hostAccessTimeout 64 3 true) up (raiseHostMem 64 3 up) = true
      ∧ leads (.hostAccessTimeout 64 3 true) h
        (raiseHostMem 64 3 (showUnder ((deckLine h true 64).getD {}) (deckDrop true 64 h))) = true := by decide +kernel

def atPhase (p : Phase) : Dev := { pwr := { phase := p } }

theorem wit_StartupSteps :
    let q := fun (p : Phase) (d : Dev) => { d with pwr := { d.pwr with phase := p } }
    (atPhase .unpowered).pwr.mrstLow = false ∧ ({} : Fuse).rowsOk = true ∧ (atPhase .fuseRead).flash.answers = true
      ∧ (atPhase .fuseRead).pier.holdNext = false ∧ popCount 160 (0 : BitVec 160).toNat ≤ 8
      ∧ leads .railsGood (atPhase .softStart) (atPhase .railsUp) = true
      ∧ leads .fuseRead (atPhase .railsUp) (atPhase .fuseRead) = true
      ∧ leads (.dieRelease true) (atPhase .verified) (atPhase .released) = true
      ∧ leads (.dieRelease false) (atPhase .verified) (enterHold holdDie 0 0 (atPhase .verified)) = true
      ∧ leads .hbmZeroing (atPhase .trained) (q .zeroed (atPhase .trained)) = true
      ∧ leads .ready (atPhase .zeroed) { atPhase .ready with hostp := { memActive := true } } = true
      ∧ leads .ready (atPhase .softStart) (atPhase .softStart) = true
      ∧ leads .loadAndVerify { atPhase .fuseRead with flash := { answers := false } }
        (enterHold holdFlash 0 0 { atPhase .fuseRead with flash := { answers := false } }) = true := by decide +kernel

/-- The header of an image without a body, as Holsever signs it. -/
def imgHead (kind : Nat) : List Byte :=
  leBytes 8 kind ++ leBytes 4 0 ++ [0xB0] ++ leBytes 3 0 ++ sm3Bytes [] ++ leBytes 80 0

theorem imgHead_form : imgForm 1 (imgHead 1) = true ∧ imgForm 2 (imgHead 2) = true := by decide +kernel

theorem imgHead_digest (kind : Nat) : imgDigest (imgHead kind) [] = true := by
  have h : ((imgHead kind).drop 0x10).take 32 = sm3Bytes [] := rfl
  rw [imgDigest, h]
  exact (Bool.and_eq_true _ _).symm ▸ ⟨rfl, beq_self_eq_true _⟩

/-- Images that LOAD_AND_VERIFY takes, where the signature check (log entry 11) accepts them. -/
theorem wit_load_verify (hv : ∀ k g s, Config.sm2Verify k g s = true) (d : Dev) :
    imageFault {} d 1 { header := imgHead 1 } = 0 ∧ imageFault {} d 2 { header := imgHead 2 } = 0 := by
  have o : imgOwner (imgHead 2) = false := by decide +kernel
  constructor <;> simp [imageFault, imgHead_form, ownerKeyOk, imgSig, hv, o, imgHead_digest, rbCounter]

/-- One channel that fails training is mapped out; where its stack has lost two already the list is full. -/
theorem wit_hbm_training :
    (match mapoutFailed (bitList 128 0 0 ++ [5].filter (fun c => decide (c < 128))) (atPhase .released) with
      | .ok _ => true
      | .error _ => false) = true
    ∧ (match mapoutFailed [0, 1, 2, 3, 4, 5, 6, 7, 8] (atPhase .released) with
      | .ok _ => false
      | .error _ => true) = true := by decide +kernel

theorem wit_fabric_training :
    let d : Dev := { up with run := { sec := { coefs := [{ port := 17 }] } } }
    d.run.sec.coefs.find? (fun c => c.port == 17) = some { port := 17 }
      ∧ leads (.fabricTraining [17]) d (trainPort 17 255 0 0 d) = true
      ∧ leads (.fabricTraining [0]) d (trainPort 0 0 0 0 d) = true := by decide +kernel

theorem wit_PowerAndPinsAct :
    let coord : Dev := { up with pwr := { up.pwr with coord := true } }
    let cold : Dev := { up with pwr := { up.pwr with clocks := (List.range 20).map (fun k => (k, 28)) } }
    let hot : Dev := { up with pwr := { up.pwr with throttling := BitVec.twoPow 5 (sensorBit .compute0) } }
    railsOn up = true ∧ throttleAt .compute0 = some 1600 ∧ tripAt .stage = some 2000 ∧ up.pwr.coord = false
      ∧ up.pwr.cap < 1651 ∧ atFloor up.pwr.clocks = false ∧ up.pwr.cap * 105 < 1733 * 100 ∧ atFloor cold.pwr.clocks = true
      ∧ hot.pwr.throttling.getLsbD (sensorBit .compute0) = true ∧ (1552 : Int) ≤ 1600 - 48
      ∧ leads (.powerCapAdjust 1651) up
        { up with pwr := { up.pwr with watts := 1651, clocks := lowerClocks allClusters up.pwr.clocks } } = true
      ∧ leads (.powerCapAdjust 1651) cold (raiseFields pwrLimit unitPower none [(1651, 11), (cold.pwr.cap, 11)]
        { cold with pwr := { cold.pwr with watts := 1651 } }) = true
      ∧ leads (.powerCapAdjust 1651) coord { coord with pwr := { coord.pwr with watts := 1651 } } = true
      ∧ leads (.powerCapAdjust 600) up
        { up with pwr := { up.pwr with watts := 600, clocks := raiseClocks allClusters up.pwr.clocks } } = true
      ∧ leads (.pwrGuard 1733 1000000) coord (raiseFields pwrGuardCls unitPower none [(1733, 11), (up.pwr.cap, 11)]
        { up with pwr := { up.pwr with watts := 1733, fellBack := true, clocks := lowerClocks allClusters up.pwr.clocks } }) = true
      ∧ leads (.thermalThrottle .compute0 1552) hot
        { hot with pwr := { takeTemp .compute0 1552 hot.pwr with
          throttling := 0, clocks := raiseClocks (slowed .compute0) up.pwr.clocks } } = true := by decide +kernel

/-- Hot sensors, lost input and a released MRST_N. -/
theorem wit_pins :
    let low : Dev := { up with pwr := { up.pwr with mrstLow := true } }
    leads (.thermalThrottle .compute0 1600) up
        (let d := fallBack { up with pwr := takeTemp .compute0 1600 up.pwr }
         attnSet 8 { d with pwr := { d.pwr with
           throttling := d.pwr.throttling ||| BitVec.twoPow 5 (sensorBit .compute0), alert := true
           clocks := lowerClocks (slowed .compute0) d.pwr.clocks } }) = true
      ∧ leads (.inputLoss 5399) up
        { unpowered up with pwr := { (unpowered up).pwr with vin := 5399, tripCause := 0 } } = true
      ∧ leads (.inputLoss 6400) up { up with pwr := { up.pwr with vin := 6400 } } = true
      ∧ leads (.mrstN 10000) up (moduleReset false low) = true ∧ leads (.mrstN 9999) up up = true
      ∧ leads .mrstNRelease low { up with pwr := { up.pwr with started := 1000000000 } } = true := by decide +kernel

/-- A module whose reference may be read, a second after the frame of it. -/
def refUp : Dev :=
  { up with kt := { up.kt with
    extref := true, state := .master, code := some (2, 900000000), refLocked := true, lastSecond := some 1 } }

theorem wit_ReferenceActs :
    let bs := leBytes 1 0x5A ++ leBytes 8 7 ++ leBytes 1 0 ++ leBytes 1 (crc8 (leBytes 8 7 ++ leBytes 1 0))
    let late : Dev := { refUp with kt := { refUp.kt with code := none } }
    let jump : Dev := { refUp with kt := { refUp.kt with lastSecond := some 2 } }
    refRead refUp = true ∧ refUp.kt.code = some (2, 900000000) ∧ 900000000 + 100000000 ≤ nowNs refUp
      ∧ nowNs refUp ≤ 900000000 + 900000000 ∧ refUp.kt.refLocked = true
      ∧ (refUp.kt.lastSecond.all (fun m => m + 1 = 2)) = true
      ∧ bs.length = 11 ∧ leAt bs 0 1 = 0x5A ∧ leAt bs 9 1 = 0 ∧ leAt bs 10 1 = crc8 ((bs.drop 1).take 9)
      ∧ leads (.tcodeFrame bs) refUp { refUp with kt := { refUp.kt with code := some (7, 1000000000) } } = true
      ∧ leads (.tcodeFrame (bs.set 0 0)) refUp refUp = true
      ∧ leads .ppsIn jump (refLose 3 { jump with kt := { jump.kt with
        lastPps := some 1000000000, code := none, lastSecond := some 2 } }) = true
      ∧ refRead late = true ∧ late.kt.code = none
      ∧ leads .ppsIn late (lockRef 1 { late with kt := { late.kt with lastPps := some 1000000000 } }) = true
      ∧ leads (.extrefLoss 2) refUp (raiseFields timeExtref unitKeystone none [(2, 8)]
        { refUp with kt := { refUp.kt with refLocked := false, refLost := true, refLeft := 0 } }) = true := by decide +kernel

/-- An edge whose frame names the next second: a first lock that may step, and one of a locked module. -/
theorem wit_reference_locks :
    let first : Dev := { refUp with kt := { refUp.kt with refLocked := false, lastSecond := none } }
    let e := lockRef 2 { first with kt := { first.kt with lastPps := some 1000000000, code := none, lastSecond := some 2 } }
    stepAllowed first = true ∧ first.kt.refLost = false ∧ e.kt.refLocked = true ∧ e.kt.now = secondUnits 2 % 2 ^ 80
      ∧ leads .ppsIn first { e with kt := { e.kt with lastPps := some (nowNs e) } } = true := by decide +kernel

theorem wit_ManagementBusReplies : up.pwr.phase ≠ .unpowered ∧ (2 : Nat) ≠ 1 ∧ (atPhase .unpowered).pwr.phase = .unpowered
    ∧ leads (.smRestart true 0xA5) up (pulse { up with pwr := { up.pwr with smbus := some [] } }) = true
    ∧ leads (.smVin true) up { up with pwr := { up.pwr with smbus := some (leBytes 2 6000) } } = true := by decide +kernel

theorem wit_SpdmAnswers :
    let d : Dev := { up with spdm := { version := true, caps := true, algos := true, chunkOut := [1] }, flash := { certs := [(7, [1, 2])] } }
    d.hostp.link = true ∧ spdmReady d = true ∧ certChain d 7 ≠ [] ∧ 1 < (certChain d 7).length ∧ d.spdm.chunkOut ≠ []
      ∧ spdmReady up = false ∧ up.spdm.version = false
      ∧ leads (.getCertificate 7 1 9) d (spdmSay [2] d) = true
      ∧ leads (.chunkGet 0 0) d { d with spdm := { d.spdm with reply := [1], chunkNext := 1, chunkOut := [] } } = true
      ∧ leads (.chunkSend 3 0 false [9]) d
        (spdmSay [] { d with spdm := { d.spdm with chunkHandle := 3, chunkNext := 1, chunkIn := [9] } }) = true
      ∧ leads .getDigests up (spdmError spdmUnexpected up) = true
      ∧ leads (.setCertificate 1 [5]) d
        (spdmSay [] { d with flash := { d.flash with certs := mapPut [] 1 [5] d.flash.certs } }) = true := by
  decide +kernel

/-! ### The mailbox -/

theorem wit_mailbox :
    let bad : Dev := { up with pier := { up.pier with done := false, overrun := false, busy := some (0, 3, 0) } }
    mboxOpen up = true ∧ up.pier.busy = none ∧ up.pwr.phase ≠ .configHold ∧ mboxKnown 0 = false
      ∧ (mailboxRow .imgBegin).isSome = true ∧ leads (.mboxBadcmd 0) up bad = true
      ∧ leads .mboxCommandEnd bad (attnSet 11 { bad with
        pier := { bad.pier with busy := none, done := true, result := 3, length := 0 } }) = true := by decide +kernel

theorem wit_mailbox_hold :
    let d : Dev := { up with pwr := { up.pwr with phase := .configHold } }
    mboxOpen d = true ∧ mboxInHold 0x09 = false ∧ mboxInHold 0x01 = true
      ∧ leads (.mboxBadcmd 0x09) d { d with pier := { d.pier with done := false, overrun := false, busy := some (9, 2, 0) } } = true := by
  decide +kernel

/-- A command that runs: another written meanwhile, one that a scan or a hang record keeps from its end, and one that ends. -/
theorem wit_mailbox_busy :
    let d : Dev := { up with pier := { busy := some (1, 0, 0) } }
    let scan : Dev := { up with pier := { busy := some (0x0A, 0, 8), scan := some (3, true) } }
    let hang : Dev := { up with pier := { busy := some (0x0D, mboxOk, 0), hangBusy := some {} } }
    mboxOpen d = true ∧ d.pier.busy ≠ none ∧ d.pier.scan = none ∧ d.pier.hangBusy = none ∧ ({} : HangRec).cause = 0
      ∧ leads (.overrun 5) d { d with pier := { d.pier with overrun := true } } = true
      ∧ leads .mboxCommandEnd scan scan = true ∧ leads .mboxCommandEnd hang hang = true
      ∧ leads .mboxCommandEnd d (attnSet 11 { d with pier := { d.pier with busy := none, done := true } }) = true := by
  decide +kernel

/-- `up` with the bytes of `bs` in the mailbox buffer. -/
def mailed (bs : List Byte) : Dev := { up with host := memOf 0x1000 bs, pier := { mboxBuf := 0x1000 } }

/-- An image header, its signature not yet checked. -/
def header1 : List Byte := leBytes 8 1 ++ leBytes 4 9 ++ [0xB0] ++ leBytes 115 0

theorem wit_img_begin (hv : ∀ k g s, Config.sm2Verify k g s = true) :
    mboxIn (mailed header1) 128 = header1 ∧ imgKind header1 = 1 ∧ imgForm 1 header1 = true ∧ imgSig {} [] 1 header1 = true
      ∧ rbCounter {} 1 ≤ imgSvn header1 := by
  refine ⟨by decide +kernel, by decide +kernel, by decide +kernel, ?_, by decide +kernel⟩
  simp [imgSig, hv]

theorem wit_img_data :
    let d := { mailed [] with pier := { img := some (1, header1, 0), arg0 := 0, arg1 := 9 } }
    d.pier.img = some (1, header1, d.pier.arg0) ∧ d.pier.arg1 ≤ 65536 ∧ d.pier.arg0 + d.pier.arg1 ≤ imgLength header1 := by
  decide +kernel

theorem wit_img_commit (hv : ∀ k g s, Config.sm2Verify k g s = true) :
    imgSig {} [] 1 (imgHead 1) = true ∧ imgDigest (imgHead 1) [] = true := ⟨by simp [imgSig, hv], imgHead_digest 1⟩

/-- An unlock token of level 3 for nonce 5. -/
def token : List Byte := leBytes 8 0 ++ leBytes 16 5 ++ leBytes 72 3

theorem wit_unlock (hv : ∀ k g s, Config.sm2Verify k g s = true) :
    tokenOk {} { up with pier := { nonce := some 5 } } token = true := by
  simp only [tokenOk, hv]
  decide +kernel

/-- Fuses without an owner, counters that the loaded images do not advance and ones that they do. -/
theorem wit_rollback :
    ({} : Fuse).ownerDigest = none ∧ imgSvn [] ≤ ({} : Fuse).rbFirmware ∧ imgSvn [] ≤ ({} : Fuse).rbConfig
      ∧ ({} : Fuse).rbFirmware < imgSvn (leBytes 8 0x100) ∧ ({} : Fuse).rbConfig < imgSvn (leBytes 8 0x100) := by
  decide +kernel

theorem wit_mailbox_units :
    let d : Dev := { up with
      pier := { arg0 := 7, arg1 := 1, debug := 1, hang := some {} }
      run := { sec := { mapout := BitVec.twoPow 128 7 } } }
    ctxExists up = false ∧ up.pier.scan = none ∧ (nextScan {} up).isSome = true ∧ scannable {} up 0 = true
      ∧ ({} : Fuse).harvest.getLsbD 7 = true ∧ hangFree up = true ∧ d.pier.hang ≠ none ∧ d.pier.arg1 ≤ 65536
      ∧ d.pier.debug ≠ 0 ∧ d.hbmc.overflow.getLsbD 7 = false ∧ d.run.sec.mapout.getLsbD 7 = true
      ∧ d.pier.arg0 < 8 ∧ ctxExists d = false ∧ d.pwr.phase = .ready ∧ bitOf d.pier.arg1 0 = true := by decide +kernel

/-- A sweep of one pin over 21 voltages, its pairs at both ends of their range and one where no point passes. -/
theorem wit_margin :
    let a := packFields [(7, 3), (2, 2), (1151, 11), (0, 1), (toTwos 5 (-10), 5), (10, 5)]
    ofTwos 5 (bitsOf a 21 17) = -10 ∧ ofTwos 5 (bitsOf a 26 22) = 10 ∧ marginPins (bitsOf a 4 3) (bitsOf a 15 5) = some 1
      ∧ (0x80 : BitVec 8).getLsbD (bitsOf a 2 0) = true ∧ (List.replicate 42 (0 : Byte)).length = 2 * (1 * (10 - (-10) + 1 : Int).toNat)
      ∧ marginPairOk 0 0 = true ∧ marginPairOk 0xE0 0x20 = true ∧ marginPairOk 0x7F 0x7F = true ∧ marginPairOk 0xDF 0x20 = false := by
  decide +kernel

/-! ### Resets, registers and records -/

theorem wit_ResetsAct :
    let j : RstJob := { unit := 0xD000, domain := 4, since := 0 }
    let d : Dev := { up with resets := [j] }
    regsOpen up = true ∧ rstIndexOk {} 2 0x1000 = true ∧ rstIndexOk {} 2 0x2000 = false ∧ unitKnown 0xD000 = true
      ∧ d.resets.find? (fun j => j.unit.toNat == 0xD000 && j.domain != 5 && j.domain != 7) = some j
      ∧ leads (.rstCore 0x1000) up (startReset 2 0x1000 true up) = true ∧ leads (.rstCore 0x2000) up up = true
      ∧ leads .rstModule up (moduleReset true up) = true
      ∧ leads (.resetDone 0xD000) d (resideAll (raise resetDoneCls 0xD000 none 0 0 up)) = true := by decide +kernel

theorem wit_reset_late :
    let j : RstJob := { unit := 0x1000, domain := 2, since := 0 }
    let d : Dev := { up with resets := [j] }
    unitKnown 0x1000 = true ∧ d.resets.find? (fun j => j.unit.toNat == 0x1000 && j.domain != 5 && j.domain != 7) = some j
      ∧ j.since + rstBound j.domain ≤ nowNs d
      ∧ leads (.resetEscalate 0x1000) d
        (escalate j (raiseRec { cls := resetEscalateCls, kind := 3, unit := 0x1000, trig := true } up)) = true := by
  decide +kernel

theorem wit_reset_rails :
    let d : Dev := { up with resets := [{ unit := 0xD000, domain := 5 }] }
    (∃ j ∈ d.resets, j.domain = 5) ∧ leads .railCycle d (cycleRails d) = true :=
  ⟨⟨_, List.mem_singleton.2 rfl, rfl⟩, by decide +kernel⟩

/-- An access of a Dovetail channel at the ends of its operands' ranges, and one that poisons a bench line. -/
theorem wit_access_timeout :
    let w := running (dv 0 64) { paused := false }
    unitKnown 0x1000 = true ∧ unitKnown 0x7000 = true ∧ 159 < 160 ∧ benchSize - 1 < benchSize
      ∧ w.pwr.phase = .ready ∧ pierRuns w = true ∧ w.resets = []
      ∧ leads (.accessTimeout 0x1000 0x7000 (some 1) none none (some 0) true) w
        (contain 0x7000 (raise engineFault 0x7000 (some 1) 0 0 (dvBusError 0 1 w))) = true
      ∧ leads (.accessTimeout 0x1000 0x7000 none (some (159, benchSize - 1)) none none false) up
        (contain 0x7000 (raise engineFault 0x7000 none 0 0 (benchPoison 159 (benchSize - 64) 64 up))) = true := by
  decide +kernel

theorem wit_ScansAndHangRecords :
    let d : Dev := { up with run := { sec := { offline := BitVec.twoPow 160 159 } } }
    let s : Dev := { up with pier := { scan := some (5, true), busy := some (0x0A, 0, 8) } }
    let held : Dev := modCtx 1 (fun x => { x with launches := [{ begun := true, left := [20] }] }) s
    up.pier.scan = none ∧ d.run.sec.offline.getLsbD 159 = true ∧ fabricOn d = true
      ∧ leads (.suspectCoreScan 159) d { d with pier := { d.pier with scan := some (159, false) } } = true
      ∧ s.pier.scan = some (5, true) ∧ coreHoldsLaunch s 5 = false ∧ scanHeld s 5 = false
      ∧ coreHoldsLaunch held 5 = true ∧ leads (.scanDone true 0) held held = true
      ∧ ({ up with pier := { hangBusy := some {} } } : Dev).pier.hangBusy = some {} := by
  decide +kernel

/-- A pass of a scan, whose core's contents are free values. -/
theorem wit_scan_ends : ∃ t, exec (.scanDone true 0) (st { up with pier := { scan := some (5, true) } }) = .next t := ⟨_, rfl⟩

theorem wit_RegistersAct :
    let on : Dev := { up with hostp := { up.hostp with adminEn := true }, kz := { up.kz with en := true } }
    up.hostp.link = true ∧ up.pwr.phase ≠ .configHold ∧ bitOf (0x85 : BitVec 48).toNat 7 = true
      ∧ bitOf (1 : BitVec 48).toNat 0 = true ∧ up.hostp.adminEn = false ∧ up.kz.en = false
      ∧ lineOf 0x47 < hbmSpan up.hbmc ∧ hbmLost up (lineOf 0x47) = false ∧ memPoisoned up false (lineOf 0x47) = false
      ∧ (hbDecode []).isSome = true
      ∧ leads (.registerWrite 0x7021 0 8) up up = true ∧ leads (.registerWrite 0x7020 0 4) up up = true
      ∧ leads (.hbmFenceGo 0x85) up (fenceChannel 5 fenceHost up) = true ∧ leads (.hbmFenceGo 5) up up = true
      ∧ leads (.adminEn 1) up (installRing 4096 { up with hostp := { up.hostp with adminEn := true } }) = true
      ∧ leads (.adminEn 1) on on = true
      ∧ leads (.adminEn 0) on (dropRing 4096 { on with hostp := up.hostp }) = true
      ∧ leads (.kzEn 1) on on = true := by decide +kernel

/-- The identity and harvest registers as the host reads them, and a block that does not answer in config-hold. -/
theorem test_identity_registers :
    bitsOf (regRead {} up 0).toNat 23 16 = 0xB0 ∧ bitsOf (regRead {} up 0).toNat 15 0 = 0x0707
      ∧ regValue {} { up with pwr := { up.pwr with phase := .configHold } } 0x1000 = 0 := by decide +kernel

theorem wit_RecordsReachTheirRing :
    let d : Dev := { up with
      err := { en := true, raised := [{}], lostNew := [(1, 3)] }
      kz := { en := true, lostNew := 2 } }
    d.err.raised = {} :: [] ∧ d.err.en = true ∧ d.hostp.link = true ∧ d.err.lostNew ≠ [] ∧ 2 ≤ errFree d ∧ d.kz.en = true
      ∧ d.kz.lostNew ≠ 0 ∧ kzRoom d = true
      ∧ leads .errorRecord d (errArrive {} { errHeld d with err := { (errHeld d).err with raised := [] } }) = true := by
  decide +kernel

/-! ### What holds of every command -/

theorem wit_WrongQueueFaults : (do
    let i := Instr.vadd (qc .l) vc4
    let (q, accept) ← queueRow i
    guard (!accept.contains (queueNo q.queue))
    let ctx ← issuer work 0 0
    let d ← got (fetchLines (startJob q ctx work) work)
    guard ((ctxAt d 1).state = .resident && leads i work (failCmd (startJob q ctx d) { cls := cmdQueue } d))) = some () := by
  decide +kernel

/-- A core that no module has is the model's one fault. -/
theorem wit_wrong_core : exec (.vadd { qc .l with core := 160 } vc4) (st work) = .fault .unknownUnit := rfl

theorem wit_EmptyCommandsIssue : (do
    let r ← start .v
    runs (.vcmp (qc .v) { vc4 with n := 0 }) work r r.job
    let r ← start .s
    runs (.zfill (qc .s) ⟨fld 0, 0, 0, fld 0, 0, false, 65535⟩) work r r.job
    guard (vc4.rslot ≤ 1023 && 1 ≤ vc4.r && vc4.r ≤ 4096 && vc4.ztid < 2 ^ 24)) = some () := by decide +kernel

/-- A module without input, one that ticks evenly, and one that slews. -/
theorem wit_IdleTicks : State.reset.pending = [] ∧ State.reset.dev.pwr.phase = .unpowered
    ∧ up.pwr.phase ≠ .unpowered ∧ ({ up.kt with slewAt := 1000 } : Keystone).refLeft = 0
    ∧ ({ up.kt with slewAt := 1000 } : Keystone).rate = 0
    ∧ slewShare (rateSlew (refSlew { up.kt with refLeft := 65536000, slewAt := 1000 })) ≠ 0 := by decide

theorem wit_FusesAdvance : State.reset.fuse.ok = true ∧ step State.reset = .next State.reset := ⟨by decide, rfl⟩

theorem wit_FaultContained : (ctxAt work 1).state ≠ .free ∧ (ctxAt work 1).state ≠ .faulted ∧ (ctxAt work 1).faultCode = 0
    ∧ (2 : Nat) ≠ 1 := by decide

/-- Nothing is in flight in another queue, so that nothing is to be apart from; and a command in flight elsewhere whose
regions lie away is. -/
theorem wit_FetchAndIssueFrame : (do
    let r ← start .v
    guard ((queueAt r.job.d 0 2).inflight = [] && !r.job.imm && r.job.loop.isNone && !r.job.cmd.trace)
    guard (otherFlights r.job.d 1 0 2 = [] && r.waits.all (fun w => !w.2))) = some () := by decide +kernel

theorem wit_apart : (do
    let r ← started (qc .v) [2] true false [] [] (modQueue 0 0 (fun x => { x with inflight := [{ dsts := [.bench 0 64] }] }) work)
    let j := { r.job with dsts := [Region.bench 64 64] }
    let [p] := otherFlights r.job.d 1 0 2 | none
    let same := p.1 / 4 == j.core
    guard (meetParts same false j.allReads p.2.dsts = [] && meetParts same false j.dsts p.2.reads = []
      && meetParts same false j.dsts p.2.dsts = [] && p.2.gauge = [] && j.gauge = [] && !(ctxAt j.d 1).sentinel)) = some () := by
  decide +kernel

theorem wit_SpanOrderFree :
    let s : SpanRec := { anchor := -64, valid := true }
    let ts : List (Bool × Val) := [(true, decodeElem 7 0x3F800000), (false, .nan), (true, decodeElem 7 0xC0000000)]
    ts.Perm ts.reverse ∧ noExp ≤ s.eobs ∧ (∀ t ∈ ts, noExp ≤ termExp t.2)
      ∧ (ts.foldl (fun s t => spanEnter { red0 with k := 4 } t.1 t.2 s) s).redo = false := by decide +kernel

theorem wit_HbmMapOneToOne :
    let h : Hbm := { active := [0, 1, 127] }
    h.active.Nodup ∧ (0, [0, 1, 127]) ∈ hbmRanges h ∧ (2 * chanBytes, [127]) ∈ hbmRanges { h with die := true }
      ∧ 127 ∈ h.active ∧ 3 * chanBytes - 1 < 3 * chanBytes ∧ 366209 < 366210 ∧ 0 + 4096 * 3 * 3 ≤ 3 * chanBytes
      ∧ 3 * chanBytes - 1 < hbmSpan h ∧ 0 / 4096 = 4095 / 4096 := by decide +kernel

theorem wit_ZhevudTestVector :
    ((0x00000003, 0x00000007, 0x00000002, 0x6A3B91E3) : Quad) = (3, 7, 2, 0x6A3B91E3) := rfl

/-! ### Values that the spec gives -/

/-- 1 + 2 and 1 · 2 in binary32, 1/3 rounded to the nearest, and the square root of 2 (IEEE 754, R36). -/
theorem test_binary32 :
    (fAdd 7 .rne false 0x3F800000 0x40000000).1 = 0x40400000 ∧ (fMul 7 .rne false 0x3F800000 0x40000000).1 = 0x40000000
      ∧ (fDiv 7 .rne false 0x3F800000 0x40400000).1 = 0x3EAAAAAB ∧ (fSqrt 7 .rne false 0x40000000).1 = 0x3FB504F3 := by
  decide +kernel

/-- CRC-32C and CRC-16 (CCITT, initial 0xFFFF) of the check string 123456789. -/
theorem test_crcs :
    let s : List Byte := [0x31, 0x32, 0x33, 0x34, 0x35, 0x36, 0x37, 0x38, 0x39]
    crc32c s = 0xE3069283 ∧ crc16 s = 0x29B1 ∧ crc8 s = 0xF4 := by decide +kernel

/-- With every channel active a stride of 4 KiB takes the next channel, and the first row of frames begins with channel 0
(R237). -/
theorem test_hbm_map :
    (hbmMap { active := List.range 128 } 0).1 = 0 ∧ (hbmMap { active := List.range 128 } 4096).1 = 1
      ∧ (hbmMap { active := List.range 128 } (4096 * 128)).1 = 1 := by decide +kernel

end Sys2Proof.Tests.Slice0
end

section
/-!
PROOF. The fuses in service (R3, R459, R461). Every command means one of three things: a change of the module alone, one
that also reads the fuses, or a command of the pier's mailbox; and of the mailbox's commands OWNER_ENROL and
ROLLBACK_ADVANCE alone blow fuses.
-/

namespace Sys2Proof.Machine

/-! ### The three forms of a meaning -/

/-- The forms that the meaning of a command takes. -/
inductive MeaningForm (s : State) : Host.Outcome State Fault Refusal → Prop
  | onDev (known : Bool) (f : Dev → Dev) : MeaningForm s (onDev known f s)
  | onFuse (known : Bool) (f : Fuse → Dev → Dev) : MeaningForm s (onFuse known f s)
  | mbox (code : Nat) (sweep : List Byte) : MeaningForm s (.next (mboxWrite code sweep s))

/-- A register write is ignored, runs a mailbox command or changes the module alone. -/
theorem meaningForm_regWrite (off : Nat) (value : BitVec 64) (size : Nat) (s : State) :
    MeaningForm s (.next (regWrite off value size s)) := by
  unfold regWrite
  simp only []
  split
  · exact .onDev true id
  · split
    · exact .mbox _ _
    · exact .onFuse true (regDev off (value.toNat % 2 ^ 48))

/-- Every command has one of the three forms. -/
theorem meaningForm_exec (i : Instr) (s : State) : MeaningForm s (exec i s) := by
  unfold exec
  cases i with
  | imgBegin | imgData | imgCommit | moduleReset | ownerEnrol | rollbackAdvance | dbgNonce | dbgUnlock | quiesce | scanNext
  | scanCore | scanStatus | hangTake | hangRead | hangRelease | traceRead | mapoutClear | hbmTest | margin | mboxBadcmd
  | overrun => exact .mbox _ _
  | fuseRead | loadAndVerify | smIdent | timeMarkSend | timeMark | portIneligible | frame | identSend | ident | mgmtWrite
  | mgmtRead | mgmtReply | mgmtAssign | portRouted | portRetrain | rtDecl | ttDecl | routingEntryStage | timetableStage
  | fmCmd | ctxCreate | challenge | getMeasurements | hangRecordDone | rstEngine | rstCore | rstCluster | rstModule
  | rstHoldNext | ktReadLo => exact .onFuse _ _
  | registerWrite => exact meaningForm_regWrite _ _ _ s
  | _ => exact .onDev _ _

/-! ### What a mailbox command does to the fuses -/

/-- IMG.SVN is a field of 6 bits (R457). -/
theorem imgSvn_lt (h : List Byte) : imgSvn h < 64 := Nat.mod_lt _ (by decide)

theorem rbCounter_le_advanced (f : Fuse) (d : Dev) (kind : Nat) : rbCounter f kind ≤ advanced f d kind :=
  Nat.le_max_left _ _

theorem advanced_le {f : Fuse} {kind : Nat} (d : Dev) (h : rbCounter f kind ≤ 64) : advanced f d kind ≤ 64 :=
  Nat.max_le.2 ⟨h, (imgSvn_lt _).le⟩

theorem Fuse.ok_iff (f : Fuse) :
    f.ok = true ↔ harvestLegal f.harvest = true ∧ f.rbFirmware ≤ 64 ∧ f.rbConfig ≤ 64 := by
  simp [Fuse.ok, and_assoc]

theorem Fuse.Later.refl (f : Fuse) : f.Later f := ⟨rfl, rfl, rfl, ⟨rfl, rfl⟩, le_rfl, le_rfl, .inr rfl⟩

/-- Blowing OWNER_DIGEST where it is unblown changes no other fuse. -/
theorem Fuse.later_ownerDigest {f : Fuse} (h : enrols f = true) (dg : BitVec 256) :
    f.Later { f with ownerDigest := some dg } :=
  ⟨rfl, rfl, rfl, ⟨rfl, rfl⟩, le_rfl, le_rfl, .inl (Option.isNone_iff_eq_none.1 h)⟩

/-- The fuses after a mailbox command: as they were, with OWNER_DIGEST blown where it was unblown, or with the rollback
counter of one kind advanced. -/
theorem mboxFuse_cases (code : Nat) (f : Fuse) (d : Dev) :
    mboxFuse code f d = f
      ∨ (enrols f = true ∧ mboxFuse code f d = { f with ownerDigest := some (Config.sm3 (mboxIn d 64)) })
      ∨ mboxFuse code f d = { f with rbFirmware := advanced f d 1 }
      ∨ mboxFuse code f d = { f with rbConfig := advanced f d 2 } := by
  unfold mboxFuse
  split
  · split
    next henrols => exact .inr (.inl ⟨henrols, rfl⟩)
    next => exact .inl rfl
  · split
    · split
      · exact .inr (.inr (.inl rfl))
      · split
        · exact .inr (.inr (.inr rfl))
        · exact .inl rfl
    · exact .inl rfl

/-- A mailbox command keeps legal fuses legal and only blows. -/
theorem mboxFuse_advances (code : Nat) {f : Fuse} (d : Dev) (hok : f.ok = true) :
    (mboxFuse code f d).ok = true ∧ f.Later (mboxFuse code f d) := by
  obtain ⟨hharvest, hfirmware, hconfig⟩ := f.ok_iff.1 hok
  obtain h | ⟨henrols, h⟩ | h | h := mboxFuse_cases code f d <;> rw [h]
  · exact ⟨hok, .refl f⟩
  · exact ⟨hok, Fuse.later_ownerDigest henrols _⟩
  · exact ⟨(Fuse.ok_iff _).2 ⟨hharvest, advanced_le d hfirmware, hconfig⟩,
      { Fuse.Later.refl f with firmware := rbCounter_le_advanced f d 1 }⟩
  · exact ⟨(Fuse.ok_iff _).2 ⟨hharvest, hfirmware, advanced_le d hconfig⟩,
      { Fuse.Later.refl f with config := rbCounter_le_advanced f d 2 }⟩

/-! ### What a step does to the fuses -/

theorem onDev_fuse {known : Bool} {f : Dev → Dev} {s t : State} (h : onDev known f s = .next t) : t.fuse = s.fuse := by
  unfold onDev at h
  split at h <;> cases h
  rfl

theorem onFuse_fuse {known : Bool} {f : Fuse → Dev → Dev} {s t : State} (h : onFuse known f s = .next t) :
    t.fuse = s.fuse := by
  unfold onFuse at h
  split at h <;> cases h
  rfl

/-- Only a mailbox command that is carried out touches the fuses. -/
theorem exec_fuse {i : Instr} {s t : State} (h : exec i s = .next t) :
    t.fuse = s.fuse ∨ ∃ code, t.fuse = mboxFuse code s.fuse s.dev := by
  have form := meaningForm_exec i s
  rw [h] at form
  generalize ho : Host.Outcome.next t = o at form
  cases form with
  | onDev => exact .inl (onDev_fuse ho.symm)
  | onFuse => exact .inl (onFuse_fuse ho.symm)
  | mbox code sweep =>
    cases ho
    unfold mboxWrite
    split
    · exact .inr ⟨code, rfl⟩
    · exact .inl rfl

theorem step_fuse {s t : State} (h : step s = .next t) :
    t.fuse = s.fuse ∨ ∃ code, t.fuse = mboxFuse code s.fuse s.dev := by
  unfold step at h
  split at h
  next c rest _ => exact exec_fuse (s := { s with pending := rest }) h
  next =>
    cases h
    exact .inl rfl

/-- Settles O54: a step leaves the fuses as they are or lets a mailbox command blow some. -/
theorem fusesAdvance : Obligations.FusesAdvance := by
  intro s t hok hstep
  obtain h | ⟨code, h⟩ := step_fuse hstep <;> rw [h]
  · exact ⟨hok, .refl s.fuse⟩
  · exact mboxFuse_advances code s.dev hok

end Sys2Proof.Machine
end

section
/-!
PROOF. Writes and reads of BAR0 (R12, R13, R446, R525 to R536) and the patrol scrub (R242): for each written register one
rule per case of its row, from which the meanings of the commands follow.
-/

namespace Sys2Proof.Machine

theorem regsOpen_of_link {d : Dev} (hlink : d.hostp.link = true) (hphase : d.pwr.phase ≠ .configHold) :
    regsOpen d = true := by
  simp [regsOpen, hlink, hphase]

/-! ### REGISTER_WRITE -/

/-- A write of other than 8 bytes, or at an unaligned offset, is ignored (R525). -/
theorem regWrite_ignored {off size : Nat} (h : off % 8 ≠ 0 ∨ size ≠ 8) (value : BitVec 64) (s : State) :
    regWrite off value size s = s := by
  obtain h | h := h <;> simp [regWrite, h]

theorem regWrite_mbox {s : State} (hlink : s.dev.hostp.link = true) (value : BitVec 64) :
    regWrite 0x7020 value 8 s = mboxWrite (value.toNat % 2 ^ 48 % 256) [] s := by
  simp [regWrite, hlink]

theorem regWrite_register {s : State} {off : Nat} (hlink : s.dev.hostp.link = true) (halign : off % 8 = 0)
    (hoff : off ≠ 0x7020) (value : BitVec 64) :
    regWrite off value 8 s = { s with dev := regDev off (value.toNat % 2 ^ 48) s.fuse s.dev } := by
  simp [regWrite, hlink, halign, hoff]

/-! ### ATTN.CLEAR and HBM.FENCE_GO -/

theorem attnCleared_of_link {d : Dev} (hlink : d.hostp.link = true) (v : Nat) :
    attnCleared v d = { d with attn := { d.attn with raw := d.attn.raw &&& ~~~BitVec.ofNat 12 v } } := if_pos hlink

theorem fenceWritten_go {d : Dev} {v : Nat} (hopen : regsOpen d = true) (hgo : bitOf v 7 = true) :
    fenceWritten v d = fenceChannel (v % 128) fenceHost d := by
  simp [fenceWritten, hopen, hgo]

theorem fenceWritten_idle {v : Nat} (hgo : bitOf v 7 = false) (d : Dev) : fenceWritten v d = d := by
  simp [fenceWritten, hgo]

/-! ### HOST.ADMIN_EN -/

theorem adminWritten_same {d : Dev} {v : Nat} (h : bitOf v 0 = d.hostp.adminEn) : adminWritten v d = d := by
  simp [adminWritten, h]

theorem adminWritten_on {d : Dev} {v : Nat} (hopen : regsOpen d = true) (hon : bitOf v 0 = true)
    (hwas : d.hostp.adminEn = false) :
    adminWritten v d = installRing adminRing { d with hostp := { d.hostp with adminEn := true } } := by
  simp [adminWritten, hopen, hon, hwas]

theorem adminWritten_off {d e : Dev} {v : Nat} (hopen : regsOpen d = true) (hoff : bitOf v 0 = false)
    (hwas : d.hostp.adminEn = true) (he : e = { d with hostp := { d.hostp with adminEn := false } }) :
    adminWritten v d =
      if (ringAt e adminRing).comps = [] ∧ (ringAt e adminRing).taken = [] ∧ ringBusy e adminRing = false
      then dropRing adminRing e else modRing adminRing (fun r => { r with drop := true }) e := by
  subst he
  simp [adminWritten, hopen, hoff, hwas, and_assoc]

/-! ### KZ.EN and ERR.EN -/

theorem kzWritten_on_again {d : Dev} {v : Nat} (hwas : d.kz.en = true) (hon : bitOf v 0 = true) : kzWritten v d = d := by
  simp [kzWritten, hwas, hon]

theorem kzWritten_stop {d : Dev} {v : Nat} (hopen : regsOpen d = true) (hwas : d.kz.en = true)
    (hoff : bitOf v 0 = false) :
    kzWritten v d =
      let e := kzRecord 8 0 (bitmapDigest d.kz.bitmap) 0 [] d
      { e with kz := { e.kz with en := false } } := by
  simp [kzWritten, hopen, hwas, hoff]

theorem kzWritten_start {d e : Dev} {v : Nat} (hopen : regsOpen d = true) (hwas : d.kz.en = false)
    (hon : bitOf v 0 = true)
    (he : e = { d with
      kz := { d.kz with
        en := true, admin := bitOf v 1, pkt := bitOf v 2, hostMem := bitOf v 3
        log2 := clampTo 10 26 (bitsOf v 12 8)
        bitmap := readMem d true d.kz.select 512 } }) :
    kzWritten v d = kzRecord 8 0 (bitmapDigest e.kz.bitmap) 1 [] e := by
  subst he
  simp [kzWritten, hopen, hwas, hon, readMem]

theorem errWritten_of_open {d e : Dev} {v : Nat} (hopen : regsOpen d = true)
    (he : e = { d with
      err := { d.err with
        en := bitOf v 0
        log2 := if d.err.en then d.err.log2 else clampTo 6 20 (bitsOf v 12 8)
        coalMs := clampTo 1 1000 (bitsOf v 25 16)
        everOn := d.err.everOn || bitOf v 0 } }) :
    errWritten v d = if bitOf v 0 && !d.err.en && !d.err.everOn then bootFlush e else e := by
  subst he
  simp [errWritten, hopen]

/-! ### Reads -/

theorem ktRead_of_open {d : Dev} (hlink : d.hostp.link = true) (hphase : d.pwr.phase ≠ .configHold) (f : Fuse) :
    ktRead f d = { d with
      hostp := { d.hostp with regReply := BitVec.ofNat 64 (attnWord d.attn * 2 ^ 48 + nowNs d % 2 ^ 48) }
      kt := { d.kt with
        readHiNs := BitVec.ofNat 16 (nowNs d / 2 ^ 48), readHiFrac := BitVec.ofNat 16 d.kt.now } } := by
  simp [ktRead, hlink, hphase, regRead, regWord, regValue, within, ktBlockRead]

/-- The four words of the harvest map (R3, R528). -/
theorem regValue_harvest (f : Fuse) (d : Dev) {i : Nat} (hi : i < 4) :
    regValue f d (0x28 + 8 * i) = f.harvest.toNat / 2 ^ (48 * i) % 2 ^ 48 := by
  have hword : ∀ m j : Nat, mapWord m j = m / 2 ^ (48 * j) % 2 ^ 48 := fun m j => by
    rw [mapWord, bitsOf, Nat.shiftRight_eq_div_pow, show 48 * j + 47 + 1 - 48 * j = 48 by omega]
  rw [← hword]
  interval_cases i <;> rfl

/-- In config-hold the blocks other than identity, attention and pier read as zero (R526). -/
theorem regValue_configHold (f : Fuse) {d : Dev} {off : Nat} (hphase : d.pwr.phase = .configHold) (hid : 0x1000 ≤ off)
    (hblock : off < 0x4000 ∨ (0x5000 ≤ off ∧ off < 0x7000) ∨ 0x7800 ≤ off) : regValue f d off = 0 := by
  have hattn : within off 0x4000 0x1000 = false := by simp only [within]; grind
  have hpier : within off 0x7000 0x800 = false := by simp only [within]; grind
  rw [regValue, if_neg (by omega), hattn, hpier]
  simp [hphase]

/-! ### PATROL_SCRUB (R242) -/

/-- A line that no channel delivers, or that HBM holds poisoned, is not scrubbed. -/
theorem scrubLine_skips {line : Nat} {d : Dev}
    (h : hbmLost d (lineOf line) = true ∨ memPoisoned d false (lineOf line) = true) (burst : BurstErr) (raced : Bool) :
    scrubLine line burst raced d = d := by
  simp [scrubLine, h]

section

variable {line : Nat} {burst : BurstErr} {d : Dev} (hlost : hbmLost d (lineOf line) = false)
  (hpoison : memPoisoned d false (lineOf line) = false) (raced : Bool)

include hlost hpoison

theorem scrubLine_uncorrectable (hdec : hbDecode burst = none) :
    scrubLine line burst raced d =
      let e := hbmUncorrectable (lineOf line) (hbSymbols burst) d
      if raced then e else markMem false (lineOf line) true e := by
  simp [scrubLine, hlost, hpoison, hdec]

theorem scrubLine_clean {left : BurstErr} (hdec : hbDecode burst = some (left, none)) :
    scrubLine line burst raced d = d := by
  simp [scrubLine, hlost, hpoison, hdec]

theorem scrubLine_corrected {left : BurstErr} {pin : Nat} (hdec : hbDecode burst = some (left, some pin)) :
    scrubLine line burst raced d =
      hbmCorrected (lineOf line) pin
        (if raced then d else scrubStore (lineOf line) (hbApply left (hbmValue (lineOf line) d)) d) := by
  simp [scrubLine, hlost, hpoison, hdec]

end

/-- An outcome whose module is another one's equal. -/
theorem next_dev_congr (s : State) {d e : Dev} (h : d = e) :
    (.next { s with dev := d } : Host.Outcome State Fault Refusal) = .next { s with dev := e } := by rw [h]

/-- Settles O48, from the rule of each register and of the scrub. -/
theorem registersAct : Obligations.RegistersAct := by
  intro s hlink
  refine ⟨?writes, ?ignored, ?clear, ?rows, ?word, ?identity, ?harvest, ?hold, ?scrub⟩
  case writes =>
    rintro off value v halign rfl
    exact ⟨fun hoff => congrArg _ (regWrite_register hlink halign hoff value),
      fun hoff => by subst hoff; exact congrArg _ (regWrite_mbox hlink value)⟩
  case ignored => exact fun off value size h => congrArg _ (regWrite_ignored h value s)
  case clear => exact fun v => next_dev_congr s (attnCleared_of_link hlink _)
  case rows =>
    intro hphase
    have hopen := regsOpen_of_link hlink hphase
    refine ⟨next_dev_congr s (ktRead_of_open hlink hphase s.fuse), ?fence, ?adminOn, ?noFence, ?adminSame, ?adminOff,
      ?kzAgain, ?kzStop, ?err, ?kzStart⟩
    case fence => exact fun v hgo => next_dev_congr s (fenceWritten_go hopen hgo)
    case adminOn => exact fun v hon hwas => next_dev_congr s (adminWritten_on hopen hon hwas)
    case noFence => exact fun v hgo => next_dev_congr s (fenceWritten_idle hgo s.dev)
    case adminSame => exact fun v h => next_dev_congr s (adminWritten_same h)
    case adminOff => exact fun v d hoff hwas hd => next_dev_congr s (adminWritten_off hopen hoff hwas hd)
    case kzAgain => exact fun v hwas hon => next_dev_congr s (kzWritten_on_again hwas hon)
    case kzStop =>
      rintro v d hwas hoff rfl
      exact next_dev_congr s (kzWritten_stop hopen hwas hoff)
    case err => exact fun v d hd => next_dev_congr s (errWritten_of_open hopen hd)
    case kzStart => exact fun v d hwas hon hd => next_dev_congr s (kzWritten_start hopen hwas hon hd)
  case word => exact fun off => rfl
  case identity => rfl
  case harvest => exact fun i hi => regValue_harvest s.fuse s.dev hi
  case hold => exact fun off hid hblock hphase => regValue_configHold s.fuse hphase hid hblock
  case scrub =>
    rintro line burst raced l rfl
    refine ⟨fun h => next_dev_congr s (scrubLine_skips h burst raced), fun hlost hpoison => ⟨?_, ?_, ?_⟩⟩
    · rintro d hdec rfl
      exact next_dev_congr s (scrubLine_uncorrectable hlost hpoison raced hdec)
    · exact fun left hdec => next_dev_congr s (scrubLine_clean hlost hpoison raced hdec)
    · exact fun left pin hdec => next_dev_congr s (scrubLine_corrected hlost hpoison raced hdec)

end Sys2Proof.Machine
end

section
/-!
PROOF. Commands complete (R15, R290, R325, R330, R372, R429, R480; log entry 9): a meaning stops in one way, the fault for
a unit that the module does not have, and each meaning's test of its units is what `Instr.wf` asks of its operands.
-/

namespace Sys2Proof.Machine

/-! ### What the form of a meaning says of its outcome -/

section

variable {known : Bool} {s : State} {o : Host.Outcome State Fault Refusal}

theorem next_of_onDev {f : Dev → Dev} (ho : o = onDev known f s) (h : known = true) : ∃ t, o = .next t :=
  ⟨_, ho.trans (if_pos h)⟩

theorem next_of_onFuse {f : Fuse → Dev → Dev} (ho : o = onFuse known f s) (h : known = true) : ∃ t, o = .next t :=
  ⟨_, ho.trans (if_pos h)⟩

end

theorem MeaningForm.not_refused {s : State} {o : Host.Outcome State Fault Refusal} (form : MeaningForm s o)
    (r : Refusal) : o ≠ .refused r := by
  cases form with
  | onDev known | onFuse known => cases known <;> exact nofun
  | mbox => exact nofun

/-! ### Operands of well-formed commands -/

theorem coreKnown_of_wf {q : QCmd} (h : q.wf = true) : coreKnown q.core = true := by
  simp only [QCmd.wf, Bool.and_eq_true] at h
  obtain ⟨⟨⟨⟨⟨hcore, _⟩, _⟩, _⟩, _⟩, _⟩ := h
  exact hcore

/-- A GLUE_BEGIN that reruns without its waits names the core that it named. -/
theorem glueBegin_next {q : QCmd} (h : q.wf = true) (status : Stepped) (s : State) :
    ∃ t, execGlueBegin q status s = .next t := by
  refine next_of_onDev rfl ?_
  split <;> exact coreKnown_of_wf (q := q) h

/-- A command that names only what the module has answers a next state. -/
theorem exec_next_of_wf {i : Instr} (h : i.wf = true) (s : State) : ∃ t, exec i s = .next t := by
  unfold exec
  cases i with
  | load | gather | spanSurvey | jrawLoad | matmul | spanClose | vadd | vsub | vmul | vfma | vmin | vmax | vminnum
  | vmaxnum | vcmp | vsel | vabs | vneg | vcopysign | vcvt | vrcp | vrsqrt | vexp2 | vlog2 | vdiv | vsqrt | viadd
  | visub | viand | vior | vixor | vishl | vishr | vicmp | vspan | vspanOut | vredmax | vredmin | vfunc | store
  | scatter | epilogue | jrawStore | spanOpen | spanAdd | spanRelease | zstep | zfill | gaugeReset | plane | atomic
  | glueCommit | dvPost | fset | fclr | fwait | clamp | twait | loop | tmark | nop | qend =>
    exact next_of_onDev rfl (coreKnown_of_wf h)
  | glueBegin => exact glueBegin_next h _ s
  | xferTimeout => exact next_of_onDev rfl rfl
  | deckAccess => exact next_of_onDev rfl (Bool.and_eq_true_iff.1 h).1
  | timeMarkSend | timeMark | portIneligible | frame | identSend | ident | mgmtWrite | mgmtRead | mgmtReply
  | mgmtAssign | portRouted | portRetrain | rtDecl | ttDecl | routingEntryStage | timetableStage =>
    exact next_of_onFuse rfl h
  | fuseRead | loadAndVerify | smIdent | fmCmd | ctxCreate | challenge | getMeasurements | hangRecordDone | rstEngine
  | rstCore | rstCluster | rstModule | rstHoldNext | ktReadLo => exact next_of_onFuse rfl rfl
  | imgBegin | imgData | imgCommit | moduleReset | ownerEnrol | rollbackAdvance | dbgNonce | dbgUnlock | quiesce
  | scanNext | scanCore | scanStatus | hangTake | hangRead | hangRelease | traceRead | mapoutClear | hbmTest | margin
  | mboxBadcmd | overrun | registerWrite => exact ⟨_, rfl⟩
  | _ => exact next_of_onDev rfl h

/-- Settles O2: the units that `Instr.wf` asks for are those that a meaning tests, and no form of a meaning refuses. -/
theorem wellFormedCommandsComplete : Obligations.WellFormedCommandsComplete :=
  ⟨fun _ s h => exec_next_of_wf h s, fun i s => (meaningForm_exec i s).not_refused⟩

end Sys2Proof.Machine
end

section
/-!
PROOF. Power, pins and cooling (R26, R366, R368, R454, R455, R474, R551, R554, R555, R559): for each event one rule per
case of its row, from which the meanings of the commands follow.
-/

namespace Sys2Proof.Machine

/-! ### Rails and sensors -/

theorem railsOn_iff (d : Dev) :
    railsOn d = true ↔ d.pwr.phase ≠ .unpowered ∧ d.pwr.phase ≠ .softStart ∧ d.pwr.phase ≠ .tripped := by
  simp [railsOn, and_assoc]

section

variable (x : Sensor) (t : Int) (p : Power)

@[simp] theorem takeTemp_phase : (takeTemp x t p).phase = p.phase := by cases x <;> rfl
@[simp] theorem takeTemp_throttling : (takeTemp x t p).throttling = p.throttling := by cases x <;> rfl
@[simp] theorem takeTemp_coord : (takeTemp x t p).coord = p.coord := by cases x <;> rfl
@[simp] theorem takeTemp_cap : (takeTemp x t p).cap = p.cap := by cases x <;> rfl
@[simp] theorem takeTemp_watts : (takeTemp x t p).watts = p.watts := by cases x <;> rfl
@[simp] theorem takeTemp_clocks : (takeTemp x t p).clocks = p.clocks := by cases x <;> rfl

@[simp] theorem railsOn_takeTemp (d : Dev) : railsOn { d with pwr := takeTemp x t d.pwr } = railsOn d := by
  simp [railsOn]

end

/-! ### The input and MRST_N -/

theorem inputLost_outside {v : Nat} (hv : v < 5400 ∨ 6400 < v) (d : Dev) :
    inputLost v d =
      { unpowered d with pwr := { (unpowered d).pwr with vin := v, tripCause := if 6600 < v then 5 else 0 } } :=
  if_neg (by omega)

theorem inputLost_inside {v : Nat} (hlow : 5400 ≤ v) (hhigh : v ≤ 6400) (d : Dev) :
    inputLost v d = { d with pwr := { d.pwr with vin := v } } :=
  if_pos ⟨hlow, hhigh⟩

theorem mrstFalls_short {ns : Nat} (h : ns < 10000) (d : Dev) : mrstFalls ns d = d := by
  simp [mrstFalls, h]

theorem mrstFalls_resets {ns : Nat} {d : Dev} (h : 10000 ≤ ns) (hrails : railsOn d = true) :
    mrstFalls ns d = moduleReset false { d with pwr := { d.pwr with mrstLow := true } } := by
  obtain ⟨hpowered, _, htripped⟩ := (railsOn_iff d).1 hrails
  simp [mrstFalls, pulse, h, hpowered, htripped]

theorem mrstRises_of_low {d : Dev} (h : d.pwr.mrstLow = true) :
    mrstRises d =
      { d with
        pwr := { d.pwr with mrstLow := false, started := nowNs d }
        resets := d.resets.map (fun j => if 4 ≤ j.domain then { j with since := nowNs d } else j) } := by
  simp [mrstRises, h]

/-! ### Hot sensors -/

section

variable {x : Sensor} {t lim : Int} {d e : Dev}

theorem throttle_hot (hrails : railsOn d = true) (hlim : throttleAt x = some lim)
    (hhot : lim ≤ t ∨ (d.pwr.throttling.getLsbD (sensorBit x) = true ∧ lim - 48 < t))
    (he : e = fallBack { d with pwr := takeTemp x t d.pwr }) :
    throttle x t d =
      attnSet 8 { e with
        pwr := { e.pwr with
          throttling := e.pwr.throttling ||| BitVec.twoPow 5 (sensorBit x)
          alert := true
          clocks := lowerClocks (slowed x) e.pwr.clocks } } := by
  subst he
  have hpowered := ((railsOn_iff d).1 hrails).1
  simp [throttle, hpowered, hlim, hrails, hhot]

theorem throttle_cooled {p : Power} (hrails : railsOn d = true) (hlim : throttleAt x = some lim) (hcool : t ≤ lim - 48)
    (hon : d.pwr.throttling.getLsbD (sensorBit x) = true) (hp : p = takeTemp x t d.pwr) :
    throttle x t d =
      { d with
        pwr := { p with
          throttling := p.throttling &&& ~~~BitVec.twoPow 5 (sensorBit x)
          clocks := if d.pwr.coord = true ∨ d.pwr.cap < d.pwr.watts
              ∨ d.pwr.throttling ≠ BitVec.twoPow 5 (sensorBit x)
            then d.pwr.clocks else raiseClocks (slowed x) d.pwr.clocks } } := by
  subst hp
  have hpowered := ((railsOn_iff d).1 hrails).1
  have hbelow : ¬ lim ≤ t := by omega
  have hend : ¬ lim - 48 < t := by omega
  simp [throttle, hpowered, hlim, hrails, hon, hbelow, hend, or_assoc]

theorem trip_beyond (hrails : railsOn d = true) (hlim : tripAt x = some lim) (hhot : lim ≤ t)
    (he : e = d.ports.foldl (fun d (p : Nat × Port) => dropEgress p.1 dropLink (fun _ => true) d)
      { d with pwr := takeTemp x t d.pwr }) :
    trip x t d =
      { moduleCleared false e with
        pwr := { (moduleCleared false e).pwr with phase := .tripped, tripCause := tripCode x, throttling := 0 }
        resets := [] } := by
  subst he
  obtain ⟨hpowered, _, htripped⟩ := (railsOn_iff d).1 hrails
  have hnot : ¬ t < lim := by omega
  simp [trip, hpowered, htripped, hlim, hnot]

end

/-! ### The power cap and the guard -/

section

variable {watts : Nat} {d : Dev} (hrails : railsOn d = true)

include hrails

theorem capAdjust_lowers (hauto : d.pwr.coord = false) (hover : d.pwr.cap < watts)
    (hfloor : atFloor d.pwr.clocks = false) :
    capAdjust watts d =
      { d with pwr := { d.pwr with watts := watts, clocks := lowerClocks allClusters d.pwr.clocks } } := by
  simp [capAdjust, hrails, hauto, hover, hfloor]

theorem capAdjust_limit (hover : d.pwr.cap < watts) (hfloor : atFloor d.pwr.clocks = true) :
    capAdjust watts d =
      raiseFields pwrLimit unitPower none [(watts, 11), (d.pwr.cap, 11)]
        { d with pwr := { d.pwr with watts := watts } } := by
  simp [capAdjust, hrails, hover, hfloor]

theorem capAdjust_raises (hauto : d.pwr.coord = false) (hunder : watts ≤ d.pwr.cap) (hcool : d.pwr.throttling = 0) :
    capAdjust watts d =
      { d with pwr := { d.pwr with watts := watts, clocks := raiseClocks allClusters d.pwr.clocks } } := by
  simp [capAdjust, hrails, hauto, Nat.not_lt.2 hunder, hcool]

theorem capAdjust_coord (hcoord : d.pwr.coord = true) (hfloor : d.pwr.cap < watts → atFloor d.pwr.clocks = false) :
    capAdjust watts d = { d with pwr := { d.pwr with watts := watts } } := by
  by_cases hover : d.pwr.cap < watts
  · simp [capAdjust, hrails, hcoord, hover, hfloor hover]
  · simp [capAdjust, hrails, hcoord, hover]

theorem guardFires_over {ns : Nat} (hcoord : d.pwr.coord = true) (hover : d.pwr.cap * 105 < watts * 100)
    (hlong : 1000000 ≤ ns) :
    guardFires watts ns d =
      raiseFields pwrGuardCls unitPower none [(watts, 11), (d.pwr.cap, 11)]
        { d with
          pwr := { d.pwr with
            watts := watts, coord := false, fellBack := true, clocks := lowerClocks allClusters d.pwr.clocks } } := by
  simp [guardFires, fallBack, hrails, hcoord, Nat.not_le.2 hover, Nat.not_lt.2 hlong]

end

/-- Settles O40, from the rule of each event. -/
theorem powerAndPinsAct : Obligations.PowerAndPinsAct := by
  intro s
  refine ⟨?lost, rfl, rfl, rfl, ?mrst, ?release, ?kept, ?short, ?hot, ?cooled, ?trip, ?power⟩
  case lost => exact fun v hv => next_dev_congr s (inputLost_outside hv s.dev)
  case mrst => exact fun ns hns hrails => next_dev_congr s (mrstFalls_resets hns hrails)
  case release => exact fun hlow => next_dev_congr s (mrstRises_of_low hlow)
  case kept => exact fun v hlow hhigh => next_dev_congr s (inputLost_inside hlow hhigh s.dev)
  case short => exact fun ns hns => next_dev_congr s (mrstFalls_short hns s.dev)
  case hot => exact fun x t lim d hrails hlim hhot hd => next_dev_congr s (throttle_hot hrails hlim hhot hd)
  case cooled =>
    exact fun x t lim p hrails hlim hcool hon hp => next_dev_congr s (throttle_cooled hrails hlim hcool hon hp)
  case trip => exact fun x t lim d hrails hlim hhot hd => next_dev_congr s (trip_beyond hrails hlim hhot hd)
  case power =>
    refine fun watts hrails => ⟨?lowers, ?limit, ?raises, ?coord, ?guard⟩
    case lowers => exact fun hauto hover hfloor => next_dev_congr s (capAdjust_lowers hrails hauto hover hfloor)
    case limit => exact fun hover hfloor => next_dev_congr s (capAdjust_limit hrails hover hfloor)
    case raises => exact fun hauto hunder hcool => next_dev_congr s (capAdjust_raises hrails hauto hunder hcool)
    case coord => exact fun hcoord hfloor => next_dev_congr s (capAdjust_coord hrails hcoord hfloor)
    case guard =>
      exact fun ns hcoord hover hlong => next_dev_congr s (guardFires_over hrails hcoord hover hlong)

end Sys2Proof.Machine
end

section
/-!
PROOF. The issue of queue commands (R174, R175, R180, R181, R203): a command that starts, whose work succeeds and that
nothing holds back leaves what its issue leaves.
-/

namespace Sys2Proof.Machine

section

variable {cmd : QCmd} {accept : List Nat} {engine glueOk : Bool} {more : List (Nat × Bool)} {ops : List Nat}
  {r : Ready}

/-- What the start of a command says: its queue issues for a context, its lines are fetched and its flags translate, it
is well formed, its waits are over and its engine has room. -/
theorem started_cases {d : Dev} (h : started cmd accept engine glueOk more ops d = some r) :
    ∃ ctx e ks, issuer d cmd.core (queueNo cmd.queue) = some ctx
      ∧ fetchLines (startJob cmd ctx d) d = .ok e
      ∧ flagXlAll e (startJob cmd ctx e).unit ctx (cmdFlags cmd more ops) = .ok ks
      ∧ cmd.core < 160
      ∧ formOk cmd accept glueOk more ops e = true
      ∧ r.dev = (cmdFlags cmd more ops).foldl (flagVisit (startJob cmd ctx e).unit ctx) e
      ∧ canIssue cmd engine more ks r.dev = true
      ∧ r.waits = waitsOf cmd more
      ∧ r.keys = ks.take (waitsOf cmd more).length
      ∧ r.inGlue = (queueNo cmd.queue == 3 && (openGlue e cmd.core).isSome)
      ∧ r.job = { startJob cmd ctx e with
          d := (latchStep cmd.core (queueNo cmd.queue) r.dev).2
          zstep := (latchStep cmd.core (queueNo cmd.queue) r.dev).1
          vc := waitVc r.dev cmd.core r.keys (startJob cmd ctx e).vc } := by
  unfold started at h
  split at h
  · cases h
  next ctx hissuer =>
    split at h
    · cases h
    next e hfetch =>
      split at h
      · cases h
      next ks hflags =>
        obtain ⟨hready, h⟩ := Option.ite_none_right_eq_some.1 h
        simp only [Bool.and_eq_true, decide_eq_true_eq] at hready
        obtain ⟨⟨hcore, hform⟩, hcan⟩ := hready
        cases h
        exact ⟨ctx, e, ks, hissuer, hfetch, hflags, hcore, hform, rfl, hcan, rfl, rfl, rfl, rfl⟩

theorem core_lt_of_started {d : Dev} (h : started cmd accept engine glueOk more ops d = some r) : cmd.core < 160 := by
  obtain ⟨_, _, _, _, _, _, hcore, _⟩ := started_cases h
  exact hcore

/-- Nothing in the form of a command refuses it. -/
theorem formOk_iff {d : Dev} :
    formOk cmd accept glueOk more ops d = true ↔
      (!accept.contains (queueNo cmd.queue)) = false
      ∧ ((waitsOf cmd more).map (·.1) ++ cmd.done.toList ++ ops).any (fun v => decide (16384 ≤ v)) = false
      ∧ (cmd.lines == 0) = false
      ∧ ((queueNo cmd.queue == 3 && (openGlue d cmd.core).isSome)
        && (!glueOk || cmd.waitA.isSome || cmd.waitB.isSome)) = false := by
  simp only [formOk, cmdFlags, Bool.and_eq_true, Bool.not_eq_true', Bool.or_eq_false_iff, Bool.not_eq_false', and_assoc]

/-- A command issues once the flags of its waits are set and its engine has room. -/
theorem canIssue_iff {ks : List Nat} {d : Dev} :
    canIssue cmd engine more ks d = true ↔
      (ks.take (waitsOf cmd more).length).any (fun k => !(pflagAt d k).value) = false
      ∧ (engine && decide (flightLimit (queueNo cmd.queue)
        ≤ ((queueAt d cmd.core (queueNo cmd.queue)).inflight.filter (fun f => !f.imm && !f.glue)).length)) = false := by
  rw [canIssue, Bool.and_eq_true, Bool.not_eq_true', List.all_eq_true, List.any_eq_false]
  simp only [Bool.not_eq_true', Bool.not_eq_false]

/-- A command whose work gives `j` issues where it stands behind no earlier one of its queue and meets no race. -/
theorem issuesNow_iff {j : Job} :
    issuesNow r j = true ↔
      behindOwn j r.keys r.inGlue r.dev = false
      ∧ (if (ctxAt r.dev r.job.ctx).sentinel then findRace { j with d := r.dev } else none) = none := by
  rw [issuesNow, Bool.and_eq_true, Bool.not_eq_true']
  cases (ctxAt r.dev r.job.ctx).sentinel <;> simp

/-- The issue of a command that starts, whose work succeeds and that nothing holds back. -/
theorem runCmd_of_started {d : Dev} {body : Job → Except Stop Job} {j : Job}
    (hstart : started cmd accept engine glueOk more ops d = some r) (hbody : body r.job = .ok j)
    (hnow : issuesNow r j = true) : runCmd cmd accept engine glueOk more ops body d = issued r j := by
  obtain ⟨ctx, e, ks, hissuer, hfetch, hflags, _, hform, hdev, hcan, hwaits, hkeys, hglue, hjob⟩ :=
    started_cases hstart
  obtain ⟨haccept, hflagNos, hlines, hbodyOk⟩ := formOk_iff.1 hform
  obtain ⟨hset, hroom⟩ := canIssue_iff.1 hcan
  obtain ⟨hbehind, hrace⟩ := issuesNow_iff.1 hnow
  have hctx : r.job.ctx = ctx := by rw [hjob]; rfl
  rw [hctx] at hrace
  have hjob' := hjob.symm
  rw [hkeys] at hbehind hjob'
  rw [hglue] at hbehind
  rw [cmdFlags] at hflags hdev
  unfold runCmd
  simp only [hissuer, hfetch]
  unfold issueCmd
  simp only [haccept, hflagNos, hlines, hbodyOk, hflags, ← hdev, hset, hroom, hjob', hbody, hbehind, hrace, issued,
    hwaits, hkeys, hglue, Bool.or_self, Bool.false_eq_true, if_false]

/-- The meaning of a command that starts, whose work succeeds and that nothing holds back. -/
theorem onDev_runCmd_of_started {s : State} {body : Job → Except Stop Job} {j : Job}
    (hstart : started cmd accept engine glueOk more ops s.dev = some r) (hbody : body r.job = .ok j)
    (hnow : issuesNow r j = true) :
    onDev (coreKnown cmd.core) (runCmd cmd accept engine glueOk more ops body) s =
      .next { s with dev := issued r j } := by
  have hknown : coreKnown cmd.core = true := decide_eq_true (core_lt_of_started hstart)
  rw [onDev, if_pos hknown, runCmd_of_started hstart hbody hnow]

end

end Sys2Proof.Machine
end

section
/-!
PROOF. Element-wise commands of the V queue (R36, R37, R108 to R115, R186, R564; a register destination under INT32 and
the NaNs of another format by log entry 40): each row of the operation table is the shared body `vElem`, and that body's
rule for elements that are all clean.
-/

namespace Sys2Proof.Machine

theorem arith_of_ne_sr {f : VCmd} (h : f.rnd ≠ .sr) (body : Job → Except Stop Job) : arith f body = body :=
  funext fun _ => if_neg h

theorem only32_of_not_prec64 {f : VCmd} (h : ¬ f.prec64 = true)
    (body : Job → Except Stop Job) : only32 f body = body :=
  funext fun _ => if_neg h

/-- A row of the operation table is the meaning of its command: the body of element-wise commands with the row's
reading, sources and operation. -/
theorem exec_of_elementwiseRule {i : Instr} {q : QCmd} {f : VCmd} {rd : VRead} {srcs : List VSrc} {cvt sel : Bool}
    {op : Job → Bool → List VIn → Lane × BitVec 5} (h : elementwiseRule i = some (q, f, rd, srcs, cvt, sel, op))
    (s : State) : exec i s = runV q (vElem f rd srcs cvt sel op) s := by
  cases i with
  | vmin | vmax | vminnum | vmaxnum | vabs | vneg | vcopysign | vcvt | vsel =>
    cases h
    rfl
  | vadd | vsub | vmul | vfma | vdiv | vsqrt =>
    obtain ⟨hrnd, h⟩ := Option.ite_none_left_eq_some.1 h
    cases h
    exact congrArg (runV q · s) (arith_of_ne_sr hrnd _)
  | vrcp | vrsqrt | vexp2 | vlog2 =>
    obtain ⟨hform, h⟩ := Option.ite_none_left_eq_some.1 h
    obtain ⟨hrnd, hprec⟩ := not_or.1 hform
    cases h
    exact congrArg (runV q · s) ((arith_of_ne_sr hrnd _).trans (only32_of_not_prec64 hprec _))
  | vfunc | viadd | visub | viand | vior | vixor | vishl | vishr =>
    obtain ⟨hprec, h⟩ := Option.ite_none_left_eq_some.1 h
    cases h
    exact congrArg (runV q · s) (only32_of_not_prec64 hprec _)
  | _ => cases h

/-! ### The shared body -/

/-- The elements that a command runs: VSEL, whose mask selects a source, runs all, the others those of PRED. -/
def runningElements (f : VCmd) (sel : Bool) (bits : List Bool) : List Bool :=
  if sel then List.replicate f.n true else bits

/-- The lane and the flags of each element, of its operands and its bit of the mask. -/
def elementOuts (f : VCmd) (sel : Bool) (op : Job → Bool → List VIn → Lane × BitVec 5) (j : Job)
    (rows : List (List VIn)) (bits : List Bool) : List (Lane × BitVec 5) :=
  (rows.zip ((runningElements f sel bits).zip bits)).map (fun (p : List VIn × (Bool × Bool)) =>
    if p.2.1 then ((op j p.2.2 p.1).1, (op j p.2.2 p.1).2 ||| orFlags (p.1.map (·.fl))) else (maskedLane f, 0))

section

variable {f : VCmd} {rd : VRead} {srcs : List VSrc} {cvt sel : Bool} {op : Job → Bool → List VIn → Lane × BitVec 5}
  {j : Job}

theorem vElem_empty (hn : f.n = 0) : vElem f rd srcs cvt sel op j = .ok j := by
  simp [vElem, hn]

theorem vElem_writes {dto : VTo} {j2 j3 j4 j5 : Job} {ls : List (List VIn)} {bits : List Bool}
    {outs : List (Lane × BitVec 5)} (hpos : 1 ≤ f.n) (hmax : f.n ≤ 2 ^ 24)
    (hdst : planDst f f.n cvt j = .ok (dto, j2)) (hsrc : readSrcs rd f srcs j2 = .ok (ls, j3))
    (hmask : (if sel then readMask f.mask f.n j3 else predLanes f f.n j3) = .ok (bits, j4))
    (hclean : poisonedLanes (runningElements f sel bits) (transposeLanes f.n ls) = [])
    (houts : outs = elementOuts f sel op j4 (transposeLanes f.n ls) bits)
    (hwrite : writeDst f dto (outs.map (·.1)) { j4 with d := addFlags j4.ctx (orFlags (outs.map (·.2))) j4.d }
      = .ok j5) :
    vElem f rd srcs cvt sel op j = .ok j5 := by
  subst houts
  have hsome : f.n ≠ 0 := by omega
  simp only [elementOuts, runningElements] at hclean hwrite
  unfold vElem
  rw [if_neg (Nat.not_lt.2 hmax), if_neg hsome]
  simp only [hdst, hsrc, hmask, hclean, hwrite, withDsts]

end

/-- Settles O11: every row of the table is the shared body, which the command's start runs. -/
theorem elementwiseCommandsIssue : Obligations.ElementwiseCommandsIssue := by
  intro i q f rd srcs cvt sel op s r hrule hstart
  rw [exec_of_elementwiseRule hrule s, runV]
  exact ⟨fun hn hnow => onDev_runCmd_of_started hstart (vElem_empty hn) hnow,
    fun _ _ _ _ _ _ _ _ hpos hmax hdst hsrc hmask hclean houts hwrite hnow =>
      onDev_runCmd_of_started hstart (vElem_writes hpos hmax hdst hsrc hmask hclean houts hwrite) hnow⟩

end Sys2Proof.Machine
end

section
/-!
PROOF. STORE and SCATTER (R39, R186, R189, R210, R218 to R224): one rule for each form of their bodies, under the checks
of the descriptor that its forms share.
-/

namespace Sys2Proof.Machine

@[simp] theorem Job.tableRead_loops (j : Job) (h : Int) : (j.tableRead h).loops = j.loops := by
  unfold Job.tableRead
  split <;> rfl

/-! ### STORE -/

section

variable {f : StoreF} {src : Tens} {x : Desc192} {j : Job} (hsrc : storeSrc f.src f.srcFmt j = .ok src)
  (hdesc : readDesc j.d j.ctx (steppedVal j.loops f.dst) = .ok x) (hwrite : x.write = true) (hplain : x.idxEn = false)
  (helem : x.elem = 0) (hcount : (descTens x false).count = src.count)

include hsrc hdesc hwrite hplain helem hcount

theorem storeBody_empty (hempty : src.count = 0) :
    storeBody f j = .ok (j.tableRead (steppedVal j.loops f.dst)) := by
  simp [storeBody, hsrc, hdesc, hwrite, hplain, helem, hcount, hempty]

theorem storeBody_writes {g : GaugeCfg} {vs : List (Val × Bool)} {j2 j3 j4 : Job} (hsome : src.count ≠ 0)
    (hgauge : gaugeCheck f.conv.gslot x.fmt x.panel (j.tableRead (steppedVal j.loops f.dst)) = .ok (g, j2))
    (hvals : takeVals src j2 = .ok (vs, j3))
    (hconv : convWrite (descTens x false) f.conv g (vs.map (fun v => Lane.val v.1 v.2)) j3 = .ok j4) :
    storeBody f j = .ok j4 := by
  simp [storeBody, hsrc, hdesc, hwrite, hplain, helem, hcount, hsome, hgauge, hvals, hconv, withDsts]

end

/-! ### SCATTER -/

/-- Where a scatter's elements are read and written: its descriptor is read, and the deck atomics of a combining one are
marked. -/
def scatterStart (f : ScatterF) (j : Job) : Job :=
  { j.tableRead (steppedVal j.loops f.dst) with atom := f.mode != .unique }

/-- What a mode asks of its descriptor and of its source's format (R221, R223, R224). -/
structure ScatterTakes (f : ScatterF) (x : Desc192) : Prop where
  write : x.write = true
  indexed : x.idxEn = true
  elem : x.elem = modeElem f.mode
  device : f.mode ≠ .unique → x.space = false
  single : f.mode = .max ∨ f.mode = .min → f.srcFmt ≤ 7

theorem scatterMode_pair_iff {m : ScatterMode} : (m == .max || m == .min) = true ↔ m = .max ∨ m = .min := by
  cases m <;> decide

theorem ScatterTakes.not_refused {f : ScatterF} {x : Desc192} (h : ScatterTakes f x) :
    ¬ (!x.idxEn ∨ !x.write ∨ x.elem ≠ modeElem f.mode ∨ (f.mode ≠ .unique ∧ x.space)
      ∨ ((f.mode == .max || f.mode == .min) ∧ 7 < f.srcFmt)) := by
  rintro (hidx | hwrite | helem | ⟨hmode, hspace⟩ | ⟨hpair, hwide⟩)
  · simp [h.indexed] at hidx
  · simp [h.write] at hwrite
  · exact helem h.elem
  · simp [h.device hmode] at hspace
  · exact absurd (h.single (scatterMode_pair_iff.1 hpair)) (by omega)

/-- Indices of at most 2^31 − 1 do not refuse a MAX or MIN scatter (R224). -/
theorem scatterRange_fits {f : ScatterF} {n : Nat}
    (h : f.mode = .max ∨ f.mode = .min → f.indexBase + n ≤ 2 ^ 31) :
    ¬ ((f.mode == .max || f.mode == .min) ∧ 2 ^ 31 < f.indexBase + n) :=
  fun ⟨hpair, hover⟩ => Nat.not_lt.2 (h (scatterMode_pair_iff.1 hpair)) hover

section

variable {f : ScatterF} {src : Tens} {x : Desc192} {j : Job} (hsrc : storeSrc f.src f.srcFmt j = .ok src)
  (hdesc : readDesc j.d j.ctx (steppedVal j.loops f.dst) = .ok x) (htakes : ScatterTakes f x)
  (hidx : checkBench j.loops 32 false f.idx = .ok ()) (hcount : src.count = indexedCount x f.idx)

include hsrc hdesc htakes hidx hcount

theorem scatterBody_empty (hempty : indexedEmpty x f.idx = true) : scatterBody f j = .ok (scatterStart f j) := by
  unfold scatterBody
  simp only [hsrc, hdesc]
  rw [if_neg htakes.not_refused]
  simp [hidx, hcount, hempty, scatterStart]

variable {ts : List Int} {vs : List (Val × Bool)} {j2 j3 : Job} (hsome : indexedEmpty x f.idx = false)
  (hread : readIndexes f.idx (scatterStart f j) = .ok (ts, j2)) (hvals : takeVals src j2 = .ok (vs, j3))

include hsome hread hvals

theorem scatterBody_unique {g : GaugeCfg} {j4 j5 : Job} (hmode : f.mode = .unique)
    (honce : uniqueCheck (x.size.getD x.idxDim 0) ts = .ok ())
    (hgauge : gaugeCheck f.conv.gslot x.fmt x.panel j3 = .ok (g, j4))
    (hconv : convWrite (indexedTens x ts false) f.conv g (vs.map (fun v => Lane.val v.1 v.2)) j4 = .ok j5) :
    scatterBody f j = .ok j5 := by
  simp only [scatterStart, Job.tableRead_loops] at hread
  unfold scatterBody
  simp only [hsrc, hdesc]
  rw [if_neg htakes.not_refused]
  simp only [Job.tableRead_loops, hidx, hsome, hread, hvals]
  rw [if_neg (not_not.2 hcount), if_neg Bool.false_ne_true, if_neg (scatterRange_fits (by simp [hmode]))]
  simp only [hmode, honce, hgauge, hconv, withDsts]

theorem scatterBody_combines {j4 : Job} (hmode : f.mode ≠ .unique)
    (hrange : f.mode = .max ∨ f.mode = .min → f.indexBase + src.count ≤ 2 ^ 31)
    (hall : scatterAll f (x.size.getD x.idxDim 0) 0
      ((elemIndexes x ts).zip (((indexedTens x ts false).addrs.map (· / 8)).zip vs)) j3 = .ok j4) :
    scatterBody f j = .ok j4 := by
  simp only [scatterStart, Job.tableRead_loops] at hread
  unfold scatterBody
  simp only [hsrc, hdesc]
  rw [if_neg htakes.not_refused]
  simp only [Job.tableRead_loops, hidx, hsome, hread, hvals]
  rw [if_neg (not_not.2 hcount), if_neg Bool.false_ne_true, if_neg (scatterRange_fits hrange)]
  cases hcase : f.mode with
  | unique => exact absurd hcase hmode
  | sum | max | min => exact hall

end

/-- Settles O6, from the rule of each form. -/
theorem storeAndScatterIssue : Obligations.StoreAndScatterIssue := by
  intro q s r hstart
  refine ⟨?store, ?storeEmpty, ?scatterEmpty, ?scatter⟩
  case store =>
    intro f src x g vs j2 j3 j4 hsrc hdesc hwrite hplain helem hcount hsome hgauge hvals hconv hnow
    exact onDev_runCmd_of_started hstart
      (storeBody_writes hsrc hdesc hwrite hplain helem hcount hsome hgauge hvals hconv) hnow
  case storeEmpty =>
    rintro f src x j hsrc hdesc hwrite hplain helem hcount hempty rfl hnow
    exact onDev_runCmd_of_started hstart
      (storeBody_empty hsrc hdesc hwrite hplain helem (hcount.trans hempty.symm) hempty) hnow
  case scatterEmpty =>
    rintro f src x j hsrc hdesc hwrite hindexed helem hdevice hsingle hidx hcount hempty rfl hnow
    exact onDev_runCmd_of_started hstart
      (scatterBody_empty hsrc hdesc ⟨hwrite, hindexed, helem, hdevice, hsingle⟩ hidx hcount hempty) hnow
  case scatter =>
    intro f src x ts vs j2 j3 j5 hsrc hdesc hwrite hindexed helem hidx hcount hsome hread hvals hunique hcombine hpair
      hnow
    have htakes : ScatterTakes f x :=
      ⟨hwrite, hindexed, helem, fun h => (hcombine h).1, fun h => (hpair h).1⟩
    refine onDev_runCmd_of_started hstart ?_ hnow
    by_cases hmode : f.mode = .unique
    · obtain ⟨g, j4, honce, hgauge, hconv⟩ := hunique hmode
      exact scatterBody_unique hsrc hdesc htakes hidx hcount hsome hread hvals hmode honce hgauge hconv
    · obtain ⟨_, hall⟩ := hcombine hmode
      exact scatterBody_combines hsrc hdesc htakes hidx hcount hsome hread hvals hmode (fun h => (hpair h).2) hall

end Sys2Proof.Machine
end

section
/-!
PROOF. The order of the terms of a reduction (R47, R48, R54, R59, R124): while no anchor test fails, terms enter a span
record by an operation that commutes, and whether one fails shows on the final exponent; and the elements of a VSPAN
reach each of its records in turn.
-/

namespace Sys2Proof.Machine

/-! ### One term -/

/-- A record after one element where no anchor test fails. -/
def spanTake (s : SpanRec) (t : Bool × Val) : SpanRec :=
  if t.1 then
    { s with
      count := (s.count + 1) % 2 ^ 44
      eobs := maxExp s.eobs (termExp t.2)
      i := s.i + enterFloor s.anchor t.2
      sticky := s.sticky.or (stickyOf t.2) }
  else { s with count := (s.count + 1) % 2 ^ 44 }

/-- Whether an element is put to the anchor test: it runs and is finite. -/
def termTested (t : Bool × Val) : Bool := t.1 && t.2.isFin

/-- Whether a record that was `s` must be redone now that it is `a`, elements having been tested or not (R59). -/
def redoAfter (r : Red) (s : SpanRec) (tested : Bool) (a : SpanRec) : Bool :=
  s.redo || (r.path == 1 && tested && !anchorFits a.eobs r.k s.anchor r.w)

@[simp] theorem Sticky.or_empty (a : Sticky) : a.or {} = a := by simp [Sticky.or]

theorem Sticky.or_right_comm (a b c : Sticky) : (a.or b).or c = (a.or c).or b := by
  simp [Sticky.or, Bool.or_right_comm]

@[simp] theorem spanTake_anchor (s : SpanRec) (t : Bool × Val) : (spanTake s t).anchor = s.anchor := by
  unfold spanTake
  split <;> rfl

theorem spanTake_count (s : SpanRec) (t : Bool × Val) : (spanTake s t).count = (s.count + 1) % 2 ^ 44 := by
  unfold spanTake
  split <;> rfl

theorem spanTake_redo (s : SpanRec) (t : Bool × Val) : (spanTake s t).redo = s.redo := by
  unfold spanTake
  split <;> rfl

theorem spanTake_eobs (s : SpanRec) (t : Bool × Val) :
    (spanTake s t).eobs = if t.1 then maxExp s.eobs (termExp t.2) else s.eobs := by
  unfold spanTake
  split <;> rfl

theorem spanTake_i (s : SpanRec) (t : Bool × Val) :
    (spanTake s t).i = s.i + if t.1 then enterFloor s.anchor t.2 else 0 := by
  unfold spanTake
  split <;> simp

theorem eobs_le_spanTake (s : SpanRec) (t : Bool × Val) : s.eobs ≤ (spanTake s t).eobs := by
  rw [spanTake_eobs]
  split
  · exact le_max_left _ _
  · exact le_rfl

/-- An element that is not tested leaves the largest exponent. -/
theorem spanTake_eobs_of_untested {s : SpanRec} {t : Bool × Val} (hmin : noExp ≤ s.eobs) (ht : termTested t = false) :
    (spanTake s t).eobs = s.eobs := by
  obtain ⟨run, x⟩ := t
  rw [spanTake_eobs]
  cases run with
  | false => rfl
  | true =>
    cases x with
    | fin => cases ht
    | inf | nan => exact max_eq_left hmin

/-- The elements of a record commute. -/
theorem spanTake_right_comm (s : SpanRec) (t u : Bool × Val) :
    spanTake (spanTake s t) u = spanTake (spanTake s u) t := by
  obtain ⟨run, x⟩ := t
  obtain ⟨run', y⟩ := u
  cases run <;> cases run' <;>
    simp [spanTake, maxExp, max_right_comm, Sticky.or_right_comm, Int.add_right_comm]

/-- An element enters, or the record is to be redone and keeps its word and its sticky bits (R48, R59). -/
theorem spanEnter_eq (r : Red) {s : SpanRec} (hmin : noExp ≤ s.eobs) (t : Bool × Val) :
    spanEnter r t.1 t.2 s =
      if redoAfter r s (termTested t) (spanTake s t) = true
      then { spanTake s t with i := s.i, sticky := s.sticky, redo := true } else spanTake s t := by
  obtain ⟨i, anchor, eobs, sticky, redo, valid, rslot, redone, count⟩ := s
  obtain ⟨run, x⟩ := t
  cases run with
  | false => cases redo <;> simp [spanEnter, spanTake, redoAfter, termTested]
  | true =>
    cases x with
    | fin n m e =>
      simp only [spanEnter, spanTake, redoAfter, termTested, Val.isFin, stickyOf, Sticky.or_empty, Bool.not_true,
        Bool.false_eq_true, if_false, if_true, Bool.and_true]
      split
      next hredo => simp [hredo]
      next hredo =>
        obtain ⟨hwas, hfit⟩ := Bool.or_eq_false_iff.1 (Bool.eq_false_iff.2 hredo)
        simp only [hfit, hwas]
        rfl
    | inf | nan =>
      have hexp : maxExp eobs noExp = eobs := max_eq_left hmin
      cases redo <;> simp [spanEnter, spanTake, redoAfter, termTested, Val.isFin, termExp, Val.expo, enterFloor, hexp]

section

variable (r : Red) {s : SpanRec} (hmin : noExp ≤ s.eobs) (t : Bool × Val)

include hmin

theorem spanEnter_anchor : (spanEnter r t.1 t.2 s).anchor = s.anchor := by
  rw [spanEnter_eq r hmin]
  split <;> exact spanTake_anchor s t

theorem spanEnter_eobs : (spanEnter r t.1 t.2 s).eobs = (spanTake s t).eobs := by
  rw [spanEnter_eq r hmin]
  split <;> rfl

theorem spanEnter_count : (spanEnter r t.1 t.2 s).count = (spanTake s t).count := by
  rw [spanEnter_eq r hmin]
  split <;> rfl

theorem spanEnter_redo : (spanEnter r t.1 t.2 s).redo = redoAfter r s (termTested t) (spanTake s t) := by
  rw [spanEnter_eq r hmin]
  split
  next h => exact h.symm
  next h =>
    have hkept := Bool.eq_false_iff.2 h
    obtain ⟨hredo, _⟩ := Bool.or_eq_false_iff.1 hkept
    rw [hkept, spanTake_redo, hredo]

theorem spanEnter_of_kept (h : (spanEnter r t.1 t.2 s).redo = false) : spanEnter r t.1 t.2 s = spanTake s t := by
  rw [spanEnter_redo r hmin] at h
  rw [spanEnter_eq r hmin, if_neg (by simp [h])]

end

/-! ### A list of terms -/

/-- A record that terms entered, beside what they leave where no anchor test fails. -/
structure SpanTracks (r : Red) (s : SpanRec) (tested : Bool) (a b : SpanRec) : Prop where
  anchor : a.anchor = s.anchor
  eobs : a.eobs = b.eobs
  count : a.count = b.count
  redo : a.redo = redoAfter r s tested b
  kept : a.redo = false → a = b

/-- An anchor that fits an exponent fits every smaller one (R54): "no exponent" is the smallest. -/
theorem anchorFits_mono {e e' : Int} {k : Nat} {l w : Int} (hmin : noExp ≤ e) (hle : e ≤ e')
    (h : anchorFits e' k l w = true) : anchorFits e k l w = true := by
  simp only [anchorFits, Bool.or_eq_true, beq_iff_eq, decide_eq_true_eq] at h ⊢
  omega

/-- Once an anchor test fails, a test on a larger exponent fails too; an element that is not tested changes no
exponent. -/
theorem redoAfter_take (r : Red) {s a b : SpanRec} {tested : Bool} (hmin : noExp ≤ b.eobs) (t : Bool × Val)
    (hredo : a.redo = redoAfter r s tested b) (hanchor : a.anchor = s.anchor) (heobs : a.eobs = b.eobs) :
    redoAfter r a (termTested t) (spanTake a t) = redoAfter r s (tested || termTested t) (spanTake b t) := by
  have hexp : (spanTake a t).eobs = (spanTake b t).eobs := by rw [spanTake_eobs, spanTake_eobs, heobs]
  have hfits := anchorFits_mono (k := r.k) (l := s.anchor) (w := r.w) hmin (eobs_le_spanTake b t)
  have hsame := spanTake_eobs_of_untested (t := t) hmin
  simp only [redoAfter, hredo, hanchor, hexp]
  cases ht : termTested t with
  | false => simp [hsame ht]
  | true =>
    cases hfit : anchorFits (spanTake b t).eobs r.k s.anchor r.w with
    | true => simp [hfits hfit]
    | false => cases r.path == 1 <;> simp

theorem eobs_le_foldl_spanTake (ts : List (Bool × Val)) (s : SpanRec) : s.eobs ≤ (ts.foldl spanTake s).eobs := by
  induction ts generalizing s with
  | nil => exact le_rfl
  | cons t ts ih => exact (eobs_le_spanTake s t).trans (ih (spanTake s t))

theorem spanTracks_foldl (r : Red) {s : SpanRec} (hmin : noExp ≤ s.eobs) (ts : List (Bool × Val)) :
    SpanTracks r s (ts.any termTested) (ts.foldl (fun s t => spanEnter r t.1 t.2 s) s) (ts.foldl spanTake s) := by
  induction ts using List.reverseRecOn with
  | nil => exact ⟨rfl, rfl, rfl, by simp [redoAfter], fun _ => rfl⟩
  | append_singleton ts t ih =>
    obtain ⟨hanchor, heobs, hcount, hredo, hkept⟩ := ih
    have hb := hmin.trans (eobs_le_foldl_spanTake ts s)
    have ha := heobs.symm ▸ hb
    simp only [List.foldl_append, List.foldl_cons, List.foldl_nil, List.any_append, List.any_cons, List.any_nil,
      Bool.or_false]
    constructor
    case anchor => rw [spanEnter_anchor r ha, hanchor]
    case eobs => rw [spanEnter_eobs r ha, spanTake_eobs, spanTake_eobs, heobs]
    case count => rw [spanEnter_count r ha, spanTake_count, spanTake_count, hcount]
    case redo => rw [spanEnter_redo r ha, redoAfter_take r hb t hredo hanchor heobs]
    case kept =>
      intro hnow
      have hbefore := spanEnter_redo r ha t ▸ hnow
      rw [spanEnter_of_kept r ha t hnow, hkept (Bool.or_eq_false_iff.1 hbefore).1]

/-- The word of a record that terms enter with no failed test is the old one and their floors (R47). -/
theorem foldl_spanTake_i (ts : List (Bool × Val)) (s : SpanRec) :
    (ts.foldl spanTake s).i = s.i + ((ts.filter (·.1)).map (fun t => enterFloor s.anchor t.2)).sum := by
  induction ts generalizing s with
  | nil => simp
  | cons t ts ih =>
    rw [List.foldl_cons, ih, spanTake_i, spanTake_anchor]
    cases h : t.1 <;> simp [h, Int.add_assoc]

/-! ### The elements of a VSPAN -/

/-- One element of the command, with its index, enters its record (R124). -/
def spanEnterAt (r : Red) (recs : List SpanRec) (p : Nat × (Bool × Val)) : List SpanRec :=
  match recs[p.1 % recs.length]? with
  | some s => recs.set (p.1 % recs.length) (spanEnter r p.2.1 p.2.2 s)
  | none => recs

theorem spanEnterAll_eq_foldl (r : Red) (ts : List (Bool × Val)) (recs : List SpanRec) :
    spanEnterAll r ts recs = ((List.range ts.length).zip ts).foldl (spanEnterAt r) recs := rfl

@[simp] theorem spanEnterAt_length (r : Red) (recs : List SpanRec) (p : Nat × (Bool × Val)) :
    (spanEnterAt r recs p).length = recs.length := by
  unfold spanEnterAt
  split <;> simp

theorem spanEnterAt_getElem (r : Red) (recs : List SpanRec) (p : Nat × (Bool × Val)) (k : Nat) (h : k < recs.length) :
    (spanEnterAt r recs p)[k]'(by simpa using h) =
      if p.1 % recs.length = k then spanEnter r p.2.1 p.2.2 recs[k] else recs[k] := by
  have hlt : p.1 % recs.length < recs.length := Nat.mod_lt _ (by omega)
  simp only [spanEnterAt, List.getElem?_eq_getElem hlt, List.getElem_set]
  split
  next heq => simp [heq]
  · rfl

/-- A record takes, in order, the elements whose index is its number modulo the number of records. -/
theorem foldl_spanEnterAt_getElem (r : Red) (ps : List (Nat × (Bool × Val))) (recs : List SpanRec) (k : Nat)
    (h : k < recs.length) :
    (ps.foldl (spanEnterAt r) recs)[k]? =
      some ((ps.filter (fun p => p.1 % recs.length == k)).foldl (fun s p => spanEnter r p.2.1 p.2.2 s) recs[k]) := by
  induction ps generalizing recs with
  | nil => simp [h]
  | cons p ps ih =>
    rw [List.foldl_cons, ih _ (by simpa using h), spanEnterAt_getElem r recs p k h, spanEnterAt_length]
    by_cases hk : p.1 % recs.length = k <;> simp [hk]

/-- Settles O57: where no anchor test fails the terms commute, and a failed one shows on the final exponent. -/
theorem spanOrderFree : Obligations.SpanOrderFree := by
  refine ⟨?_, fun r ts recs k h => by rw [spanEnterAll_eq_foldl, foldl_spanEnterAt_getElem r _ recs k h]⟩
  rintro r s a b ts us hperm hmin - rfl rfl
  have hts := spanTracks_foldl r hmin ts
  have hus := spanTracks_foldl r hmin us
  have hsame : ts.foldl spanTake s = us.foldl spanTake s :=
    hperm.foldl_eq (rcomm := ⟨spanTake_right_comm⟩) s
  have hredo := hts.redo.trans ((congrArg₂ _ hperm.any_eq hsame).trans hus.redo.symm)
  refine ⟨hredo, hts.eobs.trans (hsame ▸ hus.eobs.symm), hts.count.trans (hsame ▸ hus.count.symm), fun h => ⟨?_, ?_⟩⟩
  · rw [hts.kept h, hus.kept (hredo ▸ h), hsame]
  · rw [hts.kept h, foldl_spanTake_i]

end Sys2Proof.Machine
end

section
/-!
PROOF. Raw moves (R73, R190, R218, R219, R234): one rule for each form of the bodies of LOAD, GATHER, JRAW_LOAD and
JRAW_STORE.
-/

namespace Sys2Proof.Machine

/-! ### LOAD -/

/-- The scale bytes that a LOAD copies beside its elements: those of a panelled source, where SCALE_DST asks (R190). -/
def loadScales (f : LoadF) (x : Desc192) (j : Job) : Except Stop Job :=
  match f.scaleDst with
  | some b => if x.panel then copyScales x f.mitre (steppedVal j.loops b) f.scaleStride j else .ok j
  | none => .ok j

theorem loadBody_copies {f : LoadF} {x : Desc192} {es : List (Nat × Bool)} {j j2 j3 j4 : Job}
    (hdesc : readDesc j.d j.ctx (steppedVal j.loops f.src) = .ok x) (hplain : x.idxEn = false)
    (hdst : checkBench j.loops (descTens x f.mitre).width true f.dst = .ok ())
    (hcount : (benchBits j.loops (descTens x f.mitre).width f.dst).length = (descTens x f.mitre).count)
    (hread : readRaw (descTens x f.mitre) (j.tableRead (steppedVal j.loops f.src)) = .ok (es, j2))
    (hscales : loadScales f x j2 = .ok j3)
    (hcopy : copyToBench (descTens x f.mitre).width (benchBits j.loops (descTens x f.mitre).width f.dst) es j3
      = .ok j4) :
    loadBody f j = .ok j4 := by
  unfold loadBody
  simp only [hdesc, hplain, Job.tableRead_loops, hdst, hread]
  rw [if_neg Bool.false_ne_true, if_neg (not_not.2 hcount)]
  cases hscale : f.scaleDst with
  | none =>
    obtain rfl : j2 = j3 := by simpa [loadScales, hscale] using hscales
    simp only [hcopy, withDsts]
  | some b =>
    simp only [loadScales, hscale] at hscales
    simp only [hscales, hcopy, withDsts]

/-! ### GATHER -/

theorem badIndex_eq_none {size : Nat} {ts : List Int} (h : ∀ t ∈ ts, 0 ≤ t ∧ t < size) : badIndex size ts = none := by
  refine List.find?_eq_none.2 fun p hp => ?_
  obtain ⟨hlow, hhigh⟩ := h p.2 (List.of_mem_zip hp).2
  simp [Int.not_lt.2 hlow, Int.not_le.2 hhigh]

section

variable {f : GatherF} {x : Desc192} {j : Job} (hdesc : readDesc j.d j.ctx (steppedVal j.loops f.src) = .ok x)
  (hindexed : x.idxEn = true) (hdst : checkBench j.loops (descWidth x) true f.dst = .ok ())
  (hidx : checkBench j.loops 32 false f.idx = .ok ())
  (hcount : (benchBits j.loops (descWidth x) f.dst).length = indexedCount x f.idx)

include hdesc hindexed hdst hidx hcount

theorem gatherBody_empty (hempty : indexedEmpty x f.idx = true) :
    gatherBody f j = .ok (j.tableRead (steppedVal j.loops f.src)) := by
  simp [gatherBody, hdesc, hindexed, hdst, hidx, hcount, hempty]

theorem gatherBody_copies {ts : List Int} {es : List (Nat × Bool)} {j2 j3 j4 : Job}
    (hsome : indexedEmpty x f.idx = false)
    (hindexes : readIndexes f.idx (j.tableRead (steppedVal j.loops f.src)) = .ok (ts, j2))
    (hrange : ∀ t ∈ ts, 0 ≤ t ∧ t < x.size.getD x.idxDim 0)
    (hread : readRaw (indexedTens x ts f.mitre) j2 = .ok (es, j3))
    (hcopy : copyToBench (descWidth x) (benchBits j.loops (descWidth x) f.dst) es j3 = .ok j4) :
    gatherBody f j = .ok j4 := by
  unfold gatherBody
  simp only [hdesc, hindexed, Job.tableRead_loops, hdst, hidx, hsome, hindexes, badIndex_eq_none hrange, hread, hcopy,
    withDsts]
  rw [if_neg (by decide), if_neg (not_not.2 hcount), if_neg Bool.false_ne_true]

end

/-! ### Rows -/

section

variable {joistBase rows b : Nat} (hbase : joistBase ≤ 1023) (hrows : 1 ≤ rows) (htile : joistBase % 256 + rows ≤ 256)
  (hbench : b + 544 * rows ≤ benchSize)

include hbase hrows htile hbench

theorem rawCheck_ok : rawCheck (b : Int) joistBase rows = .ok b := by
  unfold rawCheck
  rw [if_neg (by omega), if_neg (by omega), if_neg (by omega)]
  rfl

theorem rawLoadBody_moves {src : Stepped} {j : Job} (hsrc : steppedVal j.loops src = b) :
    rawLoadBody src joistBase rows j = .ok { j with
      d := (List.range rows).foldl (fun d i => setJrow j.core (joistBase + i)
        { parseRow (benchRead j.d j.core (b + 544 * i) 544) with
          poison := (parseRow (benchRead j.d j.core (b + 544 * i) 544)).poison
            || benchPoisoned j.d j.core (b + 544 * i) 544 } d) j.d
      reads := (b, 544 * rows) :: j.reads
      dsts := Region.rows joistBase rows :: j.dsts } := by
  simp only [rawLoadBody, hsrc, rawCheck_ok hbase hrows htile hbench]

theorem rawStoreBody_moves {dst : Stepped} {j : Job} (hdst : steppedVal j.loops dst = b) :
    rawStoreBody dst joistBase rows j = .ok { j with
      d := (List.range rows).foldl (fun d i =>
        let row := jrow j.d j.core (joistBase + i)
        let d := benchWrite j.core (b + 544 * i) (packRow row) d
        if row.poison then benchPoison j.core (b + 544 * i) 544 d else d) j.d
      rds := Region.rows joistBase rows :: j.rds
      writes := (b, 544 * rows) :: j.writes
      dsts := Region.bench b (544 * rows) :: j.dsts } := by
  simp only [rawStoreBody, hdst, rawCheck_ok hbase hrows htile hbench]

end

/-- Settles O5, from the rule of each form. -/
theorem rawMovesIssue : Obligations.RawMovesIssue := by
  refine fun q s r => ⟨fun hstart => ⟨?load, ?gather, ?gatherEmpty, ?rowsIn⟩, ?rowsOut⟩
  case load =>
    intro f x es j2 j3 j4 hdesc hplain hdst hcount hread hscales hcopy hnow
    exact onDev_issues hstart (loadBody_copies hdesc hplain hdst hcount hread hscales hcopy) hnow
  case gather =>
    intro f x ts es j2 j3 j4 hdesc hindexed hdst hidx hcount hsome hindexes hrange hread hcopy hnow
    exact onDev_issues hstart
      (gatherBody_copies hdesc hindexed hdst hidx hcount hsome hindexes hrange hread hcopy) hnow
  case gatherEmpty =>
    intro f x hdesc hindexed hdst hidx hcount hempty hnow
    exact onDev_issues hstart (gatherBody_empty hdesc hindexed hdst hidx hcount hempty) hnow
  case rowsIn =>
    rintro src joistBase rows b hbase hrows htile hsrc hbench j rfl hnow
    exact onDev_issues hstart (rawLoadBody_moves hbase hrows htile hbench hsrc) hnow
  case rowsOut =>
    rintro hstart dst joistBase rows b hbase hrows htile hdst hbench j rfl hnow
    exact onDev_issues hstart (rawStoreBody_moves hbase hrows htile hbench hdst) hnow

end Sys2Proof.Machine
end

section
/-!
PROOF. Commands of reductions (R53, R56, R58, R61, R66, R76, R191, R193): one rule for each body, where no check refuses
it.
-/

namespace Sys2Proof.Machine

/-! ### The S queue: SPAN_ADD -/

theorem spanAddBody_adds {slot : Nat} {share : Share} {dst element : Stepped} {x : Desc192}
    {ws : List (SpanRec × Bool)} {red : Red} {d : Dev} {j j2 j3 : Job} (hslot : slot ≤ 1023)
    (hdesc : readDesc j.d j.ctx (steppedVal j.loops dst) = .ok x) (hplain : x.idxEn = false) (hwrite : x.write = true)
    (hdevice : x.space = false) (helem : x.elem = 1)
    (hwords : addWords share { j.tableRead (steppedVal j.loops dst) with atom := true } = .ok (ws, none, j2))
    (hlow : 0 ≤ steppedVal j2.loops element)
    (hhigh : steppedVal j2.loops element + ws.length ≤ ((descTens x false).count : Int))
    (hload : redLoad j2.unit j2.ctx slot j2.d = .ok (red, d))
    (hadd : spanAddAll slot red
      (ws.zip (((descTens x false).addrs.drop (steppedVal j2.loops element).toNat).map (· / 8))) { j2 with d := d }
        = .ok j3) :
    spanAddBody slot share dst element j = .ok j3 := by
  have hin : ¬ (steppedVal j2.loops element < 0
      ∨ ((descTens x false).count : Int) < steppedVal j2.loops element + ws.length) := by omega
  unfold spanAddBody
  rw [if_neg (Nat.not_lt.2 hslot)]
  simp only [hdesc, hplain, hwrite, hdevice, helem, hwords, hload, hadd]
  rw [if_neg (by decide), if_neg (by decide), if_neg hin]

/-! ### The L queue: SPAN_SURVEY -/

theorem surveyBody_posts {slot : Nat} {a b : Option BenchOp} {va vb : Option Nat} {d : Dev} {j j2 j3 : Job}
    (hslot : slot ≤ 1023) (ha : surveyByte a j = .ok (va, j2)) (hb : surveyByte b j2 = .ok (vb, j3))
    (hpost : surveyPost j3.unit j3.ctx slot j3.core va vb j3.d = .ok d) :
    surveyBody slot a b j = .ok { j3 with d := d, atom := true } := by
  unfold surveyBody
  rw [if_neg (Nat.not_lt.2 hslot)]
  simp only [ha, hb, hpost]

/-! ### The M queue: SPAN_CLOSE -/

theorem spanCloseBody_posts {slot : Nat} {share : Share} {rs : List SpanRec} {x : SpanRec} {d : Dev} {j j2 : Job}
    (hslot : slot ≤ 1023) (hread : readShare share j = .ok (rs, none, j2)) (hhead : rs.head? = some x)
    (hsame : ∀ y ∈ rs, y.valid = true ∧ y.rslot = slot ∧ y.count = x.count)
    (hpost : closePost j2.unit j2.ctx slot j2.core (postOf x rs) j2.d = .ok d) :
    spanCloseBody slot share j = .ok { j2 with d := d, atom := true } := by
  have hfirst : rs.headD {} = x := by simp [List.headD_eq_head?_getD, hhead]
  have hvalid : rs.any (fun r => !r.valid || r.rslot != slot) = false :=
    List.any_eq_false.2 fun y hy => by
      obtain ⟨hvalid, hrslot, _⟩ := hsame y hy
      simp [hvalid, hrslot]
  have hcount : rs.any (fun r => r.count != x.count) = false :=
    List.any_eq_false.2 fun y hy => by
      obtain ⟨_, _, hcount⟩ := hsame y hy
      simp [hcount]
  unfold spanCloseBody
  rw [if_neg (Nat.not_lt.2 hslot)]
  simp only [hread, hfirst, hvalid, hcount, hpost, Bool.false_eq_true, if_false]

/-- Settles O8, from the rule of each body. -/
theorem reductionCommandsIssue : Obligations.ReductionCommandsIssue := by
  refine fun q s r => ⟨fun hstart => ⟨?opens, ?release, ?add⟩, fun hstart => ?survey, fun hstart => ?close⟩
  case opens =>
    intro f d hopen hnow
    exact onDev_issues hstart (by simp only [hopen]) hnow
  case release =>
    rintro slot red d d2 hslot hload hresolved hpend hstore j rfl hnow
    refine onDev_issues hstart ?_ hnow
    rw [if_neg (Nat.not_lt.2 hslot)]
    simp only [hload]
    rw [if_neg (by simp [hresolved, hpend])]
    simp only [hstore]
  case add =>
    intro slot share dst element x ws j2 red d j3 hslot hdesc hplain hwrite hdevice helem hwords hlow hhigh hload hadd
      hnow
    exact onDev_issues hstart
      (spanAddBody_adds hslot hdesc hplain hwrite hdevice helem hwords hlow hhigh hload hadd) hnow
  case survey =>
    intro slot a b va vb j2 j3 d hslot ha hb hpost hnow
    exact onDev_issues hstart (surveyBody_posts hslot ha hb hpost) hnow
  case close =>
    intro slot share rs x j2 d hslot hread hhead hsame hpost hnow
    exact onDev_issues hstart (spanCloseBody_posts hslot hread hhead hsame hpost) hnow

end Sys2Proof.Machine
end

section
/-!
PROOF. A MATMUL that adds no product (R62, R82, R84, R85, R186; KC = 0 by log entry 21): which commands stop before
they read their reduction, and what the others leave.
-/

namespace Sys2Proof.Machine

/-! ### Checks -/

/-- The form of a MATMUL that neither CMD_DECODE nor MAT_OPERAND refuses, its operands aside (R79 to R82, R101). -/
structure MatmulForm (f : MatmulF) : Prop where
  matrix : fmtMatrix f.fmt = true
  known : fmtKnown f.fmt = true
  formatB : f.fmtB = f.fmt
  aPanel : f.aPanel ≤ 2
  bPanel : f.bPanel ≤ 2
  rowsLow : 1 ≤ f.mSize
  rowsHigh : f.mSize ≤ 32
  colsLow : 1 ≤ f.nSize
  colsHigh : f.nSize ≤ 32
  depth : f.kc ≤ 65536
  joist : f.joistBase ≤ 1023
  slot : f.rslot ≤ 1023
  block : f.joistBase % 32 = 0
  pair : f.sister = true → f.joistBase / 256 % 2 = 0

section

variable {f : MatmulF} (h : MatmulForm f)

include h

theorem MatmulForm.decodes :
    ¬ (!fmtKnown f.fmt ∨ 2 < f.aPanel ∨ 2 < f.bPanel ∨ f.mSize < 1 ∨ 32 < f.mSize ∨ f.nSize < 1 ∨ 32 < f.nSize
      ∨ 65536 < f.kc ∨ 1023 < f.joistBase ∨ 1023 < f.rslot) := by
  obtain ⟨_, hknown, _, haPanel, hbPanel, hrowsLow, hrowsHigh, hcolsLow, hcolsHigh, hdepth, hjoist, hslot, _, _⟩ := h
  simp only [hknown, Bool.not_true, Bool.false_eq_true, false_or]
  omega

theorem MatmulForm.formats : ¬ (!fmtMatrix f.fmt ∨ f.fmtB ≠ f.fmt) := by simp [h.matrix, h.formatB]

theorem MatmulForm.tiles : ¬ (f.joistBase % 32 ≠ 0 ∨ (f.sister ∧ f.joistBase / 256 % 2 = 1)) := by
  rintro (hblock | ⟨hsister, hodd⟩)
  · exact hblock h.block
  · have heven := h.pair hsister
    omega

end

/-- A reduction that a MATMUL may add to (R53, R57, R76, R85). -/
structure MatmulTakes (f : MatmulF) (red : Red) : Prop where
  isOpen : red.isOpen = true
  format : red.fmt = f.fmt
  products : red.single = false
  surveyed : red.path = 0 → red.resolved = true
  panels : red.path ≠ 0 → f.aPanel = 0 ∧ f.bPanel = 0

theorem matmulCheck_ok {f : MatmulF} {red : Red} (h : MatmulTakes f red) (d : Dev) :
    matmulCheck f red d = .ok () := by
  have hmatch : ¬ (red.fmt ≠ f.fmt ∨ red.single ∨ (red.path ≠ 0 ∧ (f.aPanel ≠ 0 ∨ f.bPanel ≠ 0))) := by
    rintro (hfmt | hsingle | ⟨hpath, hpanel⟩)
    · exact hfmt h.format
    · simp [h.products] at hsingle
    · obtain ⟨ha, hb⟩ := h.panels hpath
      omega
  have hsurveyed : ¬ (red.path = 0 ∧ !red.resolved) := by
    rintro ⟨hpath, hunresolved⟩
    simp [h.surveyed hpath] at hunresolved
  unfold matmulCheck
  rw [if_neg (by simp [h.isOpen]), if_neg hmatch, if_neg hsurveyed]

/-! ### The body -/

section

variable {f : MatmulF} {a b : MatOp} {j : Job} (hform : MatmulForm f)
  (ha : matOperandOf f.fmt f.kc (steppedVal j.loops f.aAddr) f.aStride f.aPanel (steppedVal j.loops f.aScale)
    f.aScaleStride = .ok a)
  (hb : matOperandOf f.fmt f.kc (steppedVal j.loops f.bAddr) f.bStride f.bPanel (steppedVal j.loops f.bScale)
    f.bScaleStride = .ok b)
  (hfree : tilesFree f j = true)

include hform ha hb hfree

/-- A MATMUL without OPEN that has no K position, or nothing to redo, reads nothing (R62, R84, R186). -/
theorem matmulBody_empty (hkeep : f.openRows = false)
    (hnone : f.kc = 0 ∨ (f.redoOnly = true ∧ ∀ x ∈ blockRows j.d j.core f.joistBase, x.redone = false)) :
    matmulBody f j = .ok j := by
  have hstop : (!f.openRows && (f.kc == 0
      || (f.redoOnly && !(blockRows j.d j.core f.joistBase).any (·.redone)))) = true := by
    obtain hkc | ⟨hredo, hrows⟩ := hnone
    · simp [hkeep, hkc]
    · simpa [hkeep, hredo] using .inr hrows
  unfold matmulBody
  rw [if_neg hform.decodes, if_neg hform.formats, if_neg hform.tiles]
  simp only [ha, hb, hfree, hstop]
  rfl

/-- A MATMUL that opens its rows runs on its reduction, unless REDO_ONLY finds nothing to redo. -/
theorem matmulBody_of_open {red : Red} {d : Dev} (hopen : f.openRows = true)
    (hload : redLoad j.unit j.ctx f.rslot j.d = .ok (red, d)) (htakes : MatmulTakes f red) :
    matmulBody f j =
      if f.redoOnly && !redoRuns f red (blockRows j.d j.core f.joistBase) then .ok { j with d := d }
      else matmulRun f a b red { j with d := d } := by
  unfold matmulBody
  rw [if_neg hform.decodes, if_neg hform.formats, if_neg hform.tiles]
  simp only [ha, hb, hfree, hopen, hload, matmulCheck_ok htakes]
  rfl

end

/-- A MATMUL without K positions leaves the rows that it opens empty (R82, R84). -/
theorem matmulRun_opens {f : MatmulF} (a b : MatOp) (red : Red) (j : Job) (hopen : f.openRows = true) (hkc : f.kc = 0) :
    matmulRun f a b red j = .ok { j with
      d := (passTiles f).foldl (fun e jb => putRows j.core jb (List.replicate 32
        (openRow f.rslot red.path (if red.path = 1 ∧ !red.resolved then red.l0 else red.l) f)) e) j.d
      tiles := (passTiles f).map (· / 256)
      dsts := (passTiles f).map (fun jb => Region.rows jb 32) } := by
  simp [matmulRun, matmulRows, hopen, hkc]

/-- Settles O10, from the rule of the empty body and of the body that opens its rows. -/
theorem matmulWithoutTerms : Obligations.MatmulWithoutTerms := by
  intro q f s r a b hstart hmatrix hknown hformatB haPanel hbPanel hrowsLow hrowsHigh hcolsLow hcolsHigh hdepth hjoist
    hslot hblock hpair ha hb hfree
  have hform : MatmulForm f := ⟨hmatrix, hknown, hformatB, haPanel, hbPanel, hrowsLow, hrowsHigh, hcolsLow, hcolsHigh,
    hdepth, hjoist, hslot, hblock, hpair⟩
  refine ⟨fun hkeep hnone hnow => onDev_issues hstart (matmulBody_empty hform ha hb hfree hkeep hnone) hnow, ?_⟩
  intro red d hopen hload hred hformat hproducts hsurveyed hpanels
  have hbody := matmulBody_of_open hform ha hb hfree hopen hload ⟨hred, hformat, hproducts, hsurveyed, hpanels⟩
  refine ⟨?nothing, ?opens⟩
  case nothing =>
    intro hredo hruns hnow
    exact onDev_issues hstart (hbody.trans (if_pos (by simp [hredo, hruns]))) hnow
  case opens =>
    rintro hkc hruns j rfl hnow
    have hnot : ¬ (f.redoOnly && !redoRuns f red (blockRows r.job.d r.job.core f.joistBase)) = true := by
      simpa using hruns
    exact onDev_issues hstart (hbody.trans ((if_neg hnot).trans (matmulRun_opens a b red _ hopen hkc))) hnow

end Sys2Proof.Machine
end

section
/-!
PROOF. VSPAN and VSPAN_OUT (R49, R50, R62, R68, R76, R112, R124, R125; operands named by their BASE, and what REDO_ONLY
reads, by log entry 39): which commands stop early, what the others enter or write, and the checks that let them.
-/

namespace Sys2Proof.Machine

/-! ### VSPAN -/

/-- The fields of a VSPAN that CMD_DECODE does not refuse. -/
structure VspanForm (f : VCmd) : Prop where
  elements : f.n ≤ 2 ^ 24
  slot : f.rslot ≤ 1023
  recordsLow : 1 ≤ f.r
  recordsHigh : f.r ≤ 4096

theorem VspanForm.decodes {f : VCmd} (h : VspanForm f) : ¬ (2 ^ 24 < f.n ∨ 1023 < f.rslot ∨ f.r < 1 ∨ 4096 < f.r) := by
  obtain ⟨helements, hslot, hlow, hhigh⟩ := h
  omega

/-- The sources of a VSPAN's terms: one value, or the factors of a product. -/
def spanSrcs (f : VCmd) : List VSrc := if srcNamed f.b then [f.a, f.b] else [f.a]

/-- A reduction that a VSPAN may add to (R53, R57, R74, R76). -/
structure VspanTakes (f : VCmd) (red : Red) : Prop where
  isOpen : red.isOpen = true
  ordered : red.path ≠ 3
  kind : red.single = !srcNamed f.b
  sources : ∀ x ∈ spanSrcs f, srcFmt f x = red.fmt ∧ (red.path ≠ 0 → ∀ o m sc, x ≠ .bench o m true sc)
  surveyed : red.path = 0 → red.resolved = true

theorem vspanCheck_ok {f : VCmd} {red : Red} (h : VspanTakes f red) (d : Dev) : vspanCheck f red d = .ok () := by
  have hsources := h.sources
  unfold spanSrcs at hsources
  unfold vspanCheck
  rw [if_neg (by simp [h.isOpen]), if_neg ?mismatch, if_neg ?unresolved]
  case mismatch =>
    rintro (hpath | hkind | hformat | ⟨hpanel, hpath⟩)
    · exact h.ordered hpath
    · simp [h.kind] at hkind
    · obtain ⟨x, hx, hne⟩ := List.any_eq_true.1 hformat
      simp [(hsources x hx).1] at hne
    · obtain ⟨x, hx, hmark⟩ := List.any_eq_true.1 hpanel
      split at hmark
      next o m p sc =>
        subst hmark
        exact (hsources _ hx).2 hpath o m sc rfl
      · cases hmark
  case unresolved =>
    rintro ⟨hpath, hunresolved⟩
    simp [h.surveyed hpath] at hunresolved

theorem any_records_eq_true {p : SpanRec → Bool} {old : List (SpanRec × Bool)} (h : ∃ x ∈ old, p x.1 = true) :
    (old.map (·.1)).any p = true := by
  obtain ⟨x, hx, hp⟩ := h
  exact List.any_eq_true.2 ⟨x.1, List.mem_map_of_mem hx, hp⟩

theorem any_records_eq_false {p : SpanRec → Bool} {old : List (SpanRec × Bool)} (h : ∀ x ∈ old, p x.1 = false) :
    (old.map (·.1)).any p = false := by
  rw [List.any_map]
  exact List.any_eq_false.2 fun x hx => by simp [h x hx]

theorem poisonedSpan_eq_none (base : Nat) {old : List (SpanRec × Bool)} (h : ∀ x ∈ old, x.2 = false) :
    poisonedSpan base old = none := by
  refine Option.map_eq_none_iff.2 (List.find?_eq_none.2 fun p hp => ?_)
  simp [h p.2 (List.of_mem_zip hp).2]

section

variable {f : VCmd} {j : Job} (hform : VspanForm f)

include hform

theorem vspanBody_empty (hn : f.n = 0) : vspanBody f j = .ok j := by
  unfold vspanBody
  rw [if_neg hform.decodes, if_pos hn]

variable {base : Nat} {old : List (SpanRec × Bool)} {jr : Job} (hpos : 1 ≤ f.n)
  (hbase : dstBase f j = some ((base : Nat) : Int)) (hspans : readSpans base f.r j = .ok (old, jr))
  (hclean : (!f.openRec || f.redoOnly) = true → ∀ x ∈ old, x.2 = false)

include hpos hbase hspans hclean

/-- A VSPAN under REDO_ONLY that adds to records of which none was redone is empty. -/
theorem vspanBody_nothing_redone (hopen : f.openRec = false) (hredo : f.redoOnly = true)
    (hnone : ∀ x ∈ old, x.1.redone = false) : vspanBody f j = .ok j := by
  have hpoison := poisonedSpan_eq_none base (hclean (by simp [hopen]))
  have hmarks : (old.map (·.1)).any (·.redone) = false := any_records_eq_false hnone
  unfold vspanBody
  rw [if_neg hform.decodes, if_neg (by omega)]
  simp [hbase, hspans, hopen, hredo, hpoison, hmarks]

/-- A VSPAN that adds to a reduction runs, unless REDO_ONLY finds no record to open again. -/
theorem vspanBody_of_takes {red : Red} {d : Dev}
    (hsome : f.openRec = false → f.redoOnly = true → ∃ x ∈ old, x.1.redone = true)
    (hload : redLoad j.unit j.ctx f.rslot j.d = .ok (red, d)) (htakes : VspanTakes f red) :
    vspanBody f j =
      if f.redoOnly && f.openRec && !(old.map (·.1)).any (fun x => x.anchor != red.l || x.redo)
      then .ok { j with d := d }
      else vspanRun f red base (old.map (·.1)) { (if !f.openRec || f.redoOnly then jr else j) with d := d } := by
  have hpoison : (if !f.openRec || f.redoOnly then poisonedSpan base old else none) = none := by
    split
    next hreads => exact poisonedSpan_eq_none base (hclean hreads)
    · rfl
  have hruns : ¬ (f.redoOnly && !f.openRec && !(old.map (·.1)).any (·.redone)) = true := by
    intro hstop
    simp only [Bool.and_eq_true, Bool.not_eq_true'] at hstop
    obtain ⟨⟨hredo, hopen⟩, hnone⟩ := hstop
    rw [any_records_eq_true (hsome hopen hredo)] at hnone
    cases hnone
  unfold vspanBody
  rw [if_neg hform.decodes, if_neg (by omega)]
  simp only [hbase, hspans, Int.toNat_natCast, hpoison, hload, vspanCheck_ok htakes]
  rw [if_neg hruns]

end

theorem vspanRun_enters {f : VCmd} {red : Red} {base : Nat} {old recs : List SpanRec} {j j2 j3 j4 : Job}
    {ls : List (List VIn)} {runs : List Bool} {terms : List (Bool × Val)}
    (hsrc : readSrcs .exact f (spanSrcs f) j = .ok (ls, j2)) (hpred : predLanes f f.n j2 = .ok (runs, j3))
    (hterms : terms = runs.zip ((transposeLanes f.n ls).map (spanTerm (srcNamed f.b))))
    (hrecs : spanRecords f red (spanSweep terms) old j3.d = .ok recs)
    (hclean : poisonedLanes runs (transposeLanes f.n ls) = [])
    (hwrite : writeSpans base (spanEnterAll red terms recs) j3 = .ok j4) : vspanRun f red base old j = .ok j4 := by
  subst hterms
  unfold spanSrcs at hsrc
  simp only [vspanRun, hsrc, hpred, hrecs, hclean, hwrite]

/-! ### VSPAN_OUT -/

theorem spanOutCheck_ok {slot : Nat} {red : Red} {old : List (SpanRec × Bool)} (hresolved : red.resolved = true)
    (h : ∀ x ∈ old, x.2 = false → x.1.valid = true ∧ x.1.rslot = slot ∧ x.1.redo = false ∧ x.1.anchor = red.l)
    (d : Dev) : spanOutCheck slot red old d = .ok () := by
  have hclean : ∀ {p : SpanRec → Bool}, (∀ x ∈ old, x.2 = false → p x.1 = false) →
      ((old.filter (fun x => !x.2)).map (·.1)).any p = false := fun hp =>
    any_records_eq_false fun x hx => by
      obtain ⟨hmem, hpoison⟩ := List.mem_filter.1 hx
      exact hp x hmem (by simpa using hpoison)
  simp only [spanOutCheck]
  rw [hclean fun x hx hpoison => ?valid, hclean fun x hx hpoison => ?final, hresolved]
  case valid =>
    obtain ⟨hvalid, hrslot, _⟩ := h x hx hpoison
    simp [hvalid, hrslot]
  case final =>
    obtain ⟨_, _, hredo, hanchor⟩ := h x hx hpoison
    simp [hredo, hanchor]
  rfl

/-- Whether a destination of VSPAN_OUT holds INT32 (R68). -/
def int32Dst (f : VCmd) : Bool :=
  match f.dst with
  | .bench _ fmt _ _ => fmt == 9
  | .vx _ _ _ => false

theorem spanOutRun_writes {f : VCmd} {red : Red} {base : Nat} {dto : VTo} {runs : List Bool} {recs : List SpanRec}
    {vals : List Val} {j j2 j3 j4 : Job} (hvals : vals = recs.map (fun x => spanVal x.i x.anchor x.sticky))
    (hwrite : writeDst f dto ((runs.zip vals).map (fun p => if p.1 then Lane.quot p.2 f.d else maskedLane f)) j
      = .ok j2)
    (hclear : (if f.keep then .ok j2 else clearValid base f.r j2) = .ok j3)
    (hsat : (if red.path == 2 && int32Dst f && (runs.zip vals).any (fun p => p.1 && beyondInt32 p.2 f.d)
      then setRedSat f.rslot j3 else .ok j3) = .ok j4) :
    spanOutRun f red base dto runs recs j = .ok j4 := by
  subst hvals
  unfold spanOutRun
  simp only [hwrite, withDsts, hclear]
  exact hsat

theorem spanOutBody_writes {f : VCmd} {op : BenchOp} {fmt : Nat} {panel : Bool} {scale : Option BenchOp} {base : Nat}
    {old : List (SpanRec × Bool)} {red : Red} {d : Dev} {dto : VTo} {runs : List Bool} {j j2 j3 j4 j5 : Job}
    (hslot : f.rslot ≤ 1023) (hlow : 1 ≤ f.r) (hhigh : f.r ≤ 4096) (hdlow : 1 ≤ f.d) (hdhigh : f.d < 2 ^ 32)
    (ha : f.a = .bench op fmt panel scale) (hbase : steppedVal j.loops op.base = ((base : Nat) : Int))
    (hspans : readSpans base f.r j = .ok (old, j2)) (hdst : planDst f f.r false j2 = .ok (dto, j3))
    (hpred : predLanes f f.r j3 = .ok (runs, j4)) (hclean : ∀ x ∈ runs.zip old, x.1 = true → x.2.2 = false)
    (hload : redLoad j4.unit j4.ctx f.rslot j4.d = .ok (red, d))
    (hcheck : spanOutCheck f.rslot red old d = .ok ())
    (hrun : spanOutRun f red base dto runs (old.map (·.1)) { j4 with d := d } = .ok j5) :
    spanOutBody f j = .ok j5 := by
  have hpoison : ((List.range f.r).zip (runs.zip old)).filter (fun p => p.2.1 && p.2.2.2) = [] := by
    refine List.filter_eq_nil_iff.2 fun p hp => ?_
    have := hclean p.2 (List.of_mem_zip hp).2
    simpa using this
  unfold spanOutBody
  rw [if_neg (by omega)]
  simp only [ha, hbase, hspans, hdst, hpred, hpoison, hload, hcheck, Int.toNat_natCast, hrun]

/-- Settles O13, from the rules of the bodies of VSPAN and VSPAN_OUT. -/
theorem spanCommandsIssue : Obligations.SpanCommandsIssue := by
  refine ⟨?enter, ?out⟩
  case enter =>
    intro q f s r hstart hn hslot hlow hhigh
    have hform : VspanForm f := ⟨hn, hslot, hlow, hhigh⟩
    refine ⟨fun hzero hnow => onDev_issues hstart (vspanBody_empty hform hzero) hnow, ?_⟩
    rintro base old jr reads hpos hbase hspans rfl hclean
    refine ⟨?nothing, ?takes⟩
    case nothing =>
      intro hopen hredo hnone hnow
      exact onDev_issues hstart (vspanBody_nothing_redone hform hpos hbase hspans hclean hopen hredo hnone) hnow
    case takes =>
      intro red d hsome hload hred hordered hkind hsources hsurveyed
      have hbody := vspanBody_of_takes hform hpos hbase hspans hclean hsome hload
        ⟨hred, hordered, hkind, hsources, hsurveyed⟩
      refine ⟨?final, ?runs⟩
      case final =>
        intro hopen hredo hfinal hnow
        refine onDev_issues hstart (hbody.trans (if_pos ?_)) hnow
        rw [any_records_eq_false fun x hx => by simp [hfinal x hx], hopen, hredo]
        rfl
      case runs =>
        intro ls j4 runs j5 terms recs j6 hreopen hsrc hpred hterms hrecs hpoison hwrite hnow
        refine onDev_issues hstart (hbody.trans ((if_neg ?_).trans
          (vspanRun_enters hsrc hpred hterms hrecs hpoison hwrite))) hnow
        intro hstop
        simp only [Bool.and_eq_true, Bool.not_eq_true'] at hstop
        obtain ⟨⟨hredo, hopen⟩, hnone⟩ := hstop
        obtain ⟨x, hx, hmark⟩ := hreopen hopen hredo
        rw [any_records_eq_true ⟨x, hx, by simpa using hmark⟩] at hnone
        cases hnone
  case out =>
    intro q f s r op fmt panel scale base old j2 red d dto j3 runs j4 vals lanes j5 j6 j7 hstart hslot hlow hhigh hdlow
      hdhigh ha hbase hspans hdst hpred hclean hload hresolved hfinal hvals hlanes hwrite hclear hsat hnow
    subst hlanes
    have hrecs : vals = (old.map (·.1)).map (fun x => spanVal x.i x.anchor x.sticky) := by
      rw [hvals, List.map_map]
      rfl
    exact onDev_issues hstart (spanOutBody_writes hslot hlow hhigh hdlow hdhigh ha hbase hspans hdst hpred hclean hload
      (spanOutCheck_ok hresolved hfinal d) (spanOutRun_writes hrecs hwrite hclear hsat)) hnow

end Sys2Proof.Machine
end

section
/-!
PROOF. VREDMAX and VREDMIN (R69, R70, R126, R133, R186; the destination named by its BASE, and the bound on ZORG, by log
entry 39): the shared body on clean operands.
-/

namespace Sys2Proof.Machine

/-- The fields of a VREDMAX or VREDMIN that CMD_DECODE does not refuse. -/
structure RedForm (f : VCmd) : Prop where
  elements : f.n ≤ 2 ^ 24
  recordsLow : 1 ≤ f.r
  recordsHigh : f.r ≤ 4096
  tensor : f.ztid < 2 ^ 24

theorem RedForm.decodes {f : VCmd} (h : RedForm f) :
    ¬ (2 ^ 24 < f.n ∨ f.r < 1 ∨ 4096 < f.r ∨ 2 ^ 24 ≤ f.ztid) := by
  obtain ⟨helements, hlow, hhigh, htensor⟩ := h
  omega

theorem vRedBody_empty {f : VCmd} (big : Bool) {j : Job} (hform : RedForm f) (hn : f.n = 0) :
    vRedBody f big j = .ok j := by
  unfold vRedBody
  rw [if_neg hform.decodes, if_pos hn]

theorem zhvRangeCheck_ok {zorg : Int} {n : Nat} (hlow : 0 ≤ zorg) (hhigh : zorg + n ≤ 2 ^ 43) :
    zhvRangeCheck zorg n = .ok () := if_neg (by omega)

/-- The pair records before the elements: the identity of the maximum or minimum where OPEN is set, else those of the
bench (R70, R126). -/
def pairsAt (f : VCmd) (big : Bool) (base : Nat) (j : Job) : List RedPair :=
  (List.range f.r).map (fun k =>
    if f.openRec then ⟨.inf big, 0x7FFFFFFF, true, false⟩
    else ⟨decodeElem 7 (benchLe j.d j.core (base + 8 * k) 8 % 2 ^ 32),
      ofTwos 32 (benchLe j.d j.core (base + 8 * k) 8 / 2 ^ 32), false, false⟩)

/-- The pair records that changed, each with its bits and the flags of its conversion (R126). -/
def pairOuts (f : VCmd) (j : Job) (ps : List RedPair) : List (Nat × (Nat × BitVec 5)) :=
  ((List.range f.r).zip ps).filterMap (fun p =>
    if p.2.new then
      some (p.1, pairBits f (elemRandom j f.conv f.ztid ((steppedVal j.loops f.zorg).toNat + p.1)) p.2)
    else none)

theorem vRedBody_writes {f : VCmd} {big : Bool} {base : Nat} {ls : List (List VIn)} {runs : List Bool}
    {outs : List (Nat × (Nat × BitVec 5))} {j j2 j3 j4 : Job} (hform : RedForm f) (hpos : 1 ≤ f.n)
    (hzlow : 0 ≤ steppedVal j.loops f.zorg) (hzhigh : steppedVal j.loops f.zorg + (max f.n f.r : Nat) ≤ 2 ^ 43)
    (hdst : dstBase f j = some ((base : Nat) : Int)) (halign : base % 8 = 0) (hbench : base + 8 * f.r ≤ benchSize)
    (hsrc : readSrcs .exact f [f.a] j = .ok (ls, j2)) (hpred : predLanes f f.n j2 = .ok (runs, j3))
    (hrecords : f.openRec = false → ∀ k < f.r, (∃ i < f.n, i % f.r = k ∧ runs.getD i false = true) →
      benchPoisoned j3.d j3.core (base + 8 * k) 8 = false)
    (hclean : poisonedLanes runs (transposeLanes f.n ls) = [])
    (houts : outs = pairOuts f j3 (pairEnterAll big f.indexBase
      (runs.zip ((transposeLanes f.n ls).filterMap List.head?)) (pairsAt f big base j3)))
    (hwrite : putWrites true (outs.map (fun p => (⟨8 * ((base : Int) + 8 * p.1), 64, p.2.1⟩ : BitWrite)))
      { j3 with
        d := addFlags j3.ctx (orFlags (outs.map (·.2.2))) j3.d
        reads := if f.openRec then j3.reads else (base, 8 * f.r) :: j3.reads } = .ok j4) :
    vRedBody f big j = .ok j4 := by
  have hpoison : (if f.openRec then none else (List.range f.r).find? (fun k =>
      benchPoisoned j3.d j3.core (base + 8 * k) 8
        && (List.range f.n).any (fun i => i % f.r == k && runs.getD i false))) = none := by
    split
    · rfl
    next hkeep =>
      refine List.find?_eq_none.2 fun k hk hbad => ?_
      obtain ⟨hmark, hused⟩ := Bool.and_eq_true_iff.1 hbad
      obtain ⟨i, hi, hrun⟩ := List.any_eq_true.1 hused
      obtain ⟨hindex, hrun⟩ := Bool.and_eq_true_iff.1 hrun
      rw [hrecords (Bool.eq_false_iff.2 hkeep) k (List.mem_range.1 hk)
        ⟨i, List.mem_range.1 hi, beq_iff_eq.1 hindex, hrun⟩] at hmark
      cases hmark
  subst houts
  unfold vRedBody
  rw [if_neg hform.decodes, if_neg (by omega)]
  simp only [hdst, zhvRangeCheck_ok hzlow hzhigh]
  rw [if_neg (by omega)]
  simp only [hsrc, hpred, Int.toNat_natCast, hpoison, hclean]
  exact hwrite

/-- Settles O14: the two commands are the shared body. -/
theorem extremaIssue : Obligations.ExtremaIssue := by
  intro q f s r i big hstart hn hlow hhigh htensor hcmd
  have hexec : exec i s = runV q (vRedBody f big) s := by
    obtain ⟨rfl, rfl⟩ | ⟨rfl, rfl⟩ := hcmd <;> rfl
  have hform : RedForm f := ⟨hn, hlow, hhigh, htensor⟩
  rw [hexec]
  refine ⟨fun hzero hnow => onDev_issues hstart (vRedBody_empty big hform hzero) hnow, ?_⟩
  rintro base ls j2 runs j3 start ps outs j4 hpos hzlow hzhigh hdst halign hbench hsrc hpred rfl hrecords hclean rfl
    houts hwrite hnow
  exact onDev_issues hstart
    (vRedBody_writes hform hpos hzlow hzhigh hdst halign hbench hsrc hpred hrecords hclean houts hwrite) hnow

end Sys2Proof.Machine
end

section
/-!
PROOF. A MATMUL that adds products (R79, R82 to R85, R91, R105, R174, R192): one with a K position and, under REDO_ONLY,
something to redo runs on its reduction, and its run is the pass on the rows that it opened or checked.
-/

namespace Sys2Proof.Machine

/-- A MATMUL with a K position that no REDO_ONLY predicate stops runs on its reduction (R62, R84). -/
theorem matmulBody_runs {f : MatmulF} {a b : MatOp} {red : Red} {d : Dev} {j : Job} (hform : MatmulForm f)
    (hkc : f.kc ≠ 0)
    (ha : matOperandOf f.fmt f.kc (steppedVal j.loops f.aAddr) f.aStride f.aPanel (steppedVal j.loops f.aScale)
      f.aScaleStride = .ok a)
    (hb : matOperandOf f.fmt f.kc (steppedVal j.loops f.bAddr) f.bStride f.bPanel (steppedVal j.loops f.bScale)
      f.bScaleStride = .ok b)
    (hfree : tilesFree f j = true)
    (hredone : f.openRows = false → f.redoOnly = true → ∃ x ∈ blockRows j.d j.core f.joistBase, x.redone = true)
    (hload : redLoad j.unit j.ctx f.rslot j.d = .ok (red, d)) (htakes : MatmulTakes f red)
    (hruns : f.redoOnly = true → redoRuns f red (blockRows j.d j.core f.joistBase) = true) :
    matmulBody f j = matmulRun f a b red { j with d := d } := by
  have hsome : (!f.openRows && (f.kc == 0
      || (f.redoOnly && !(blockRows j.d j.core f.joistBase).any (·.redone)))) = false := by
    have hany : f.openRows = false → f.redoOnly = true →
        (blockRows j.d j.core f.joistBase).any (·.redone) = true :=
      fun hkeep hredo => List.any_eq_true.2 (hredone hkeep hredo)
    simpa [hkc] using hany
  have hredo : (f.redoOnly && !redoRuns f red (blockRows j.d j.core f.joistBase)) = false := by
    simpa using hruns
  unfold matmulBody
  rw [if_neg hform.decodes, if_neg hform.formats, if_neg hform.tiles]
  simp only [ha, hb, hfree, hsome, hload, matmulCheck_ok htakes, hredo]
  rfl

/-- The run of a MATMUL with a K position is the pass on its rows, read where it did not open them (R85, R105). -/
theorem matmulRun_passes {f : MatmulF} {a b : MatOp} {red : Red} {j j2 : Job} (hkc : f.kc ≠ 0)
    (hrows : matmulRows f red (if red.path = 1 ∧ !red.resolved then red.l0 else red.l) j = .ok j2) :
    matmulRun f a b red j = matmulPass f a b red ⟨red.path, red.k, red.w, red.path == 1⟩
      { j2 with
        rds := if f.openRows then j2.rds else (passTiles f).map (fun jb => Region.rows jb 32) ++ j2.rds
        tiles := (passTiles f).map (· / 256) } := by
  simp only [matmulRun, hrows, if_neg hkc]

/-- Settles O9: the body runs, and its run is the pass. -/
theorem matmulIssues : Obligations.MatmulIssues := by
  rintro q f s r a b red d l rows j2 j3 hstart hmatrix hknown hformatB haPanel hbPanel hrowsLow hrowsHigh hcolsLow
    hcolsHigh hdepth hkc hjoist hslot hblock hpair ha hb hfree hredone hload hred hformat hproducts hsurveyed hpanels
    hruns rfl hrows rfl hpass hnow
  have hform : MatmulForm f := ⟨hmatrix, hknown, hformatB, haPanel, hbPanel, hrowsLow, hrowsHigh, hcolsLow, hcolsHigh,
    hdepth, hjoist, hslot, hblock, hpair⟩
  have hbody := matmulBody_runs hform hkc ha hb hfree hredone hload
    ⟨hred, hformat, hproducts, hsurveyed, hpanels⟩ hruns
  exact onDev_issues hstart (hbody.trans ((matmulRun_passes hkc hrows).trans hpass)) hnow

end Sys2Proof.Machine
end

section
/-!
PROOF. EPILOGUE on clean rows and operands (R92 to R100): no element meets poison, so the body is its write.
-/

namespace Sys2Proof.Machine

/-- The fields of an EPILOGUE that neither CMD_DECODE nor MAT_OPERAND refuses (R92). -/
structure EpilogueForm (f : EpilogueF) : Prop where
  joist : f.joistBase ≤ 1023
  block : f.joistBase % 32 = 0
  slot : f.rslot ≤ 1023
  rowsLow : 1 ≤ f.mSize
  rowsHigh : f.mSize ≤ 32
  colsLow : 1 ≤ f.nSize
  colsHigh : f.nSize ≤ 32
  tensor : f.ztid < 2 ^ 24

theorem EpilogueForm.decodes {f : EpilogueF} (h : EpilogueForm f) :
    ¬ (1023 < f.joistBase ∨ 1023 < f.rslot ∨ f.mSize < 1 ∨ 32 < f.mSize ∨ f.nSize < 1 ∨ 32 < f.nSize
      ∨ 2 ^ 24 ≤ f.ztid) := by
  obtain ⟨hjoist, _, hslot, hrowsLow, hrowsHigh, hcolsLow, hcolsHigh, htensor⟩ := h
  omega

/-- A row's poison is that of its joist rows, whatever regions the command has read. -/
theorem epiPoison_rds (f : EpilogueF) (j : Job) (rds : List Region) (i : Nat) :
    epiPoison f { j with rds := rds } i = epiPoison f j i := rfl

theorem epilogueBody_writes {f : EpilogueF} {t : Tens} {g : GaugeCfg} {red : Red} {d : Dev}
    {ops : List ((Val × Bool) × Option Nat)} {rows : List JRow} {j j1 j2 j4 j5 : Job} (hform : EpilogueForm f)
    (hdst : argTens f.dst true (f.mSize * f.nSize) f.ztid (steppedVal j.loops f.zorg) j = .ok (t, j1))
    (hgauge : gaugeCheck f.conv.gslot t.fmt t.panel j1 = .ok (g, j2))
    (hload : redLoad j2.unit j2.ctx f.rslot j2.d = .ok (red, d))
    (hopnd : epiOperand f (f.mSize * f.nSize) { j2 with d := d } = .ok (ops, j4))
    (hrows : epiRows f red j4 = .ok rows) (hpoison : ∀ i < f.mSize, epiPoison f j4 i = none)
    (hops : ∀ o ∈ ops, o.2 = none)
    (hwrite : epiWrite f red t g rows ops { j4 with rds := epiRegions f rows ++ j4.rds } = .ok j5) :
    epilogueBody f j = .ok j5 := by
  unfold epilogueBody
  rw [if_neg hform.decodes, if_neg (not_not.2 hform.block)]
  simp only [hdst, hgauge, hload, hopnd, hrows]
  rw [List.filterMap_eq_nil_iff.2 ?clean]
  case clean =>
    intro p hp
    obtain ⟨hindex, hpair⟩ := List.of_mem_zip hp
    have hrow : p.1 / f.nSize < f.mSize := Nat.div_lt_of_lt_mul (Nat.mul_comm f.mSize _ ▸ List.mem_range.1 hindex)
    simp only [epiPoison_rds, hpoison _ hrow, hops _ (List.of_mem_zip hpair).1, Option.map_none]
  exact hwrite

/-- Settles O7, from the rule of the body on clean rows and operands. -/
theorem epilogueIssues : Obligations.EpilogueIssues := by
  intro q f s r t g red d2 ops rows j1 j2 j4 j5 hstart hjoist hblock hslot hrowsLow hrowsHigh hcolsLow hcolsHigh htensor
    hdst hgauge hload hopnd hrows hpoison hops hwrite hnow
  exact onDev_issues hstart (epilogueBody_writes
    ⟨hjoist, hblock, hslot, hrowsLow, hrowsHigh, hcolsLow, hcolsHigh, htensor⟩ hdst hgauge hload hopnd hrows hpoison
    hops hwrite) hnow

end Sys2Proof.Machine
end

section
/-!
PROOF. VCMP and VICMP (R109, R112, R565), and the empty commands (R111, R186): the two compares are one body, its rule on
clean elements, and the rule of ZFILL's body where N = 0.
-/

namespace Sys2Proof.Machine

theorem exec_vcmp (q : QCmd) (f : VCmd) (s : State) :
    exec (.vcmp q f) s = runV q (vCompare f .prec (fun a b => fCmp (precFmt f) f.cond a b)) s := rfl

theorem exec_vicmp {f : VCmd} (hprec : f.prec64 = false) (q : QCmd) (s : State) :
    exec (.vicmp q f) s =
      runV q (vCompare f .int (fun a b => (intCmp f.cond (ofTwos 32 a) (ofTwos 32 b), 0))) s :=
  congrArg (runV q · s) (only32_of_not_prec64 (by simp [hprec]) _)

/-! ### The shared body -/

/-- The mask bit and the flags of each element: the comparison of one that runs, and for one that does not the bit kept
under MERGE and cleared otherwise (R112, R565). -/
def compareOuts (f : VCmd) (op : Nat → Nat → Bool × BitVec 5) (rows : List (List VIn)) (runs : List Bool) :
    List (Option Bool × BitVec 5) :=
  (rows.zip runs).map (fun p =>
    if p.2 then (some (op (opnd p.1 0) (opnd p.1 1)).1, (op (opnd p.1 0) (opnd p.1 1)).2 ||| orFlags (p.1.map (·.fl)))
    else if f.pred = .merge then (none, 0) else (some false, 0))

/-- The mask words that a compare writes, each with whether it stays poisoned for a bit that it keeps (R565). -/
def compareWords (f : VCmd) (base : Nat) (outs : List (Option Bool × BitVec 5)) (j : Job) : List (BitWrite × Bool) :=
  ((List.range ((f.n + 63) / 64)).zip (chunksOf outs.length 64 (outs.map (·.1)))).map (fun p =>
    (⟨8 * ((base + 8 * p.1 : Nat) : Int), 64, maskWord (benchLe j.d j.core (base + 8 * p.1) 8) p.2⟩,
      p.2.any (·.isNone) && benchPoisoned j.d j.core (base + 8 * p.1) 8))

/-- The poison that kept bits leave on their words. -/
def poisonKept (ws : List (BitWrite × Bool)) (j : Job) : Job :=
  { j with d := ws.foldl (fun d p => if p.2 then benchPoison j.core (p.1.at_.toNat / 8) 8 d else d) j.d }

section

variable {f : VCmd} {rd : VRead} {op : Nat → Nat → Bool × BitVec 5} {j : Job}

theorem vCompare_empty (hn : f.n = 0) : vCompare f rd op j = .ok j := by
  unfold vCompare
  rw [if_neg (by omega), if_pos hn]

theorem vCompare_writes {dop : BenchOp} {fmt : Nat} {panel : Bool} {scale : Option BenchOp} {base : Nat}
    {ls : List (List VIn)} {runs : List Bool} {outs : List (Option Bool × BitVec 5)} {ws : List (BitWrite × Bool)}
    {j2 j3 j4 : Job} (hpos : 1 ≤ f.n) (hmax : f.n ≤ 2 ^ 24) (hdst : f.dst = .bench dop fmt panel scale)
    (hbase : steppedVal j.loops dop.base = ((base : Nat) : Int)) (halign : base % 8 = 0)
    (hbench : base + 8 * ((f.n + 63) / 64) ≤ benchSize)
    (hsrc : readSrcs rd f [f.a, f.b] j = .ok (ls, j2)) (hpred : predLanes f f.n j2 = .ok (runs, j3))
    (hclean : poisonedLanes runs (transposeLanes f.n ls) = [])
    (houts : outs = compareOuts f op (transposeLanes f.n ls) runs) (hws : ws = compareWords f base outs j3)
    (hwrite : putWrites true (ws.map (·.1)) { j3 with d := addFlags j3.ctx (orFlags (outs.map (·.2))) j3.d }
      = .ok j4) :
    vCompare f rd op j = .ok (poisonKept ws j4) := by
  subst houts hws
  simp only [compareWords, compareOuts] at hwrite
  unfold vCompare
  rw [if_neg (Nat.not_lt.2 hmax), if_neg (by omega)]
  simp only [hdst, hbase]
  rw [if_neg (by omega), if_neg (by omega)]
  simp only [hsrc, hpred, hclean, Int.toNat_natCast, hwrite]
  rfl

end

/-- Settles O12: both commands are the shared body, which is empty where N = 0 and else writes its mask words. -/
theorem compareCommandsIssue : Obligations.CompareCommandsIssue := by
  intro q f s r i hstart
  refine ⟨?empty, ?writes⟩
  case empty =>
    rintro hn (rfl | ⟨rfl, hprec⟩) hnow
    · rw [exec_vcmp]
      exact onDev_issues hstart (vCompare_empty hn) hnow
    · rw [exec_vicmp hprec]
      exact onDev_issues hstart (vCompare_empty hn) hnow
  case writes =>
    rintro rd op dop fmt panel scale base ls j2 runs j3 outs ws j4 hpos hmax hcmd hdst hbase halign hbench hsrc hpred
      hclean houts hws hwrite j rfl hnow
    have hexec : exec i s = runV q (vCompare f rd op) s := by
      obtain ⟨rfl, rfl, rfl⟩ | ⟨rfl, hprec, rfl, rfl⟩ := hcmd
      · exact exec_vcmp q f s
      · exact exec_vicmp hprec q s
    rw [hexec]
    exact onDev_issues hstart
      (vCompare_writes hpos hmax hdst hbase halign hbench hsrc hpred hclean houts hws hwrite) hnow

/-! ### Empty commands -/

theorem zfillBody_empty {f : ZfillF} {j : Job} (hn : f.n = 0) (hthresh : f.thresh ≤ 65535) (htensor : f.ztid < 2 ^ 24) :
    zfillBody f j = .ok j := by
  unfold zfillBody
  rw [if_neg (by omega), if_pos hn]

/-- Settles O51: where N = 0 the body of each of these commands answers the job that it was given. -/
theorem emptyCommandsIssue : Obligations.EmptyCommandsIssue := by
  rintro i q s r (⟨hstart, f, hn, hcmd⟩ | ⟨hstart, f, hn, hthresh, htensor, rfl⟩) hnow
  case inl =>
    have hmax : f.n ≤ 2 ^ 24 := by omega
    obtain rfl | ⟨rfl, hprec⟩ | ⟨rfl, hslot, hlow, hhigh⟩ | ⟨htensor, hlow, hhigh, hcmd⟩ := hcmd
    · exact (compareCommandsIssue q f s r _ hstart).1 hn (.inl rfl) hnow
    · exact (compareCommandsIssue q f s r _ hstart).1 hn (.inr ⟨rfl, hprec⟩) hnow
    · exact onDev_issues hstart (vspanBody_empty ⟨hmax, hslot, hlow, hhigh⟩ hn) hnow
    · have hform : RedForm f := ⟨hmax, hlow, hhigh, htensor⟩
      obtain rfl | rfl := hcmd
      · exact onDev_issues hstart (vRedBody_empty true hform hn) hnow
      · exact onDev_issues hstart (vRedBody_empty false hform hn) hnow
  case inr => exact onDev_issues hstart (zfillBody_empty hn hthresh htensor) hnow

end Sys2Proof.Machine
end

section
/-!
PROOF. Training numerics (R137, R138, R141, R147): one rule for each body of ZSTEP, ZFILL and GAUGE_RESET where no check
refuses it, and the test vector of the Zhevud generator, whose values are parts of its one output.
-/

namespace Sys2Proof.Machine

/-! ### ZSTEP, ZFILL and GAUGE_RESET -/

/-- ZSTEP INC adds 1 to a counter that is not at its last value (R138). -/
theorem zstepInc_adds {q : QCmd} {s : State} {r : Ready} {j : Job}
    (hstart : started q [3] true false [] [] s.dev = some r) (hroom : r.job.zstep ≠ BitVec.allOnes 64)
    (hj : j = { r.job with
      zold := some r.job.zstep
      d := modCore r.job.core (fun c => { c with zstep := c.zstep + 1 }) r.job.d })
    (hnow : issuesNow r j = true) : exec (.zstep q .inc) s = .next { s with dev := issued r j } :=
  onDev_issues hstart ((if_neg hroom).trans (congrArg _ hj.symm)) hnow

theorem zfillBody_writes {f : ZfillF} {j : Job} {a len : Nat} (hpos : 1 ≤ f.n) (hmax : f.n ≤ 2 ^ 24)
    (hthresh : f.thresh ≤ 65535) (htensor : f.ztid < 2 ^ 24) (hlow : 0 ≤ steppedVal j.loops f.zorg)
    (hhigh : steppedVal j.loops f.zorg + f.n ≤ 2 ^ 43) (hdst : steppedVal j.loops f.dst = (a : Int))
    (hlen : len = if f.mask then (f.n + 7) / 8 else 2 * f.n) (halign : a % (if f.mask then 8 else 2) = 0)
    (hbench : a + len ≤ benchSize) :
    zfillBody f j = .ok { j with
      d := benchWrite j.core a (zfillBytes f (benchLe j.d j.core a len) (zfillVals f j)) j.d
      writes := (a, len) :: j.writes
      dsts := Region.bench a len :: j.dsts } := by
  have haligned : (a : Int) % (if f.mask then 8 else 2) = 0 := mod_cast halign
  have hplaced : ¬ ((a : Int) < 0 ∨ (a : Int) % (if f.mask then 8 else 2) ≠ 0 ∨ (benchSize : Int) < a + len) := by
    omega
  unfold zfillBody
  rw [if_neg (by omega), if_neg (by omega)]
  simp only [zhvRangeCheck_ok hlow hhigh, hdst, ← hlen, Int.toNat_natCast]
  rw [if_neg hplaced]

theorem gaugeResetBody_writes {f : GaugeResetF} {j : Job} {slot : Nat} (hknown : fmtKnown f.fmt = true)
    (hwidth : f.ewidth ≤ 3) (hpanel : f.panel = true → fmtPanelOk f.fmt = true) (hgslot : f.gslot ≤ 65535)
    (hslot : slot = gaugeSlotNo f.gslot f.fmt) (hfree : slot < 10 ∨ 15 < slot)
    (hcount : slot < (ctxAt j.d j.ctx).gaugeCount) :
    gaugeResetBody f j = putWrites false ((List.range 5).map (fun i : Nat =>
      (⟨((gaugeAddr j.d j.ctx slot + 64 * i : Nat) : Int) * 8, 512,
        leAt (gaugeSlotBytes f.fmt f.panel
          (if f.ebase = 0x8000#16 then gaugeDefault f.fmt f.panel else (f.ewidth, f.ebase.toInt))) (64 * i) 64⟩
        : BitWrite))) j := by
  subst hslot
  have hdecodes : ¬ (!fmtKnown f.fmt ∨ 3 < f.ewidth ∨ (f.panel ∧ !fmtPanelOk f.fmt) ∨ 65535 < f.gslot) := by
    rintro (hunknown | hwide | ⟨hasked, hnone⟩ | hbeyond)
    · simp [hknown] at hunknown
    · omega
    · simp [hpanel hasked] at hnone
    · omega
  unfold gaugeResetBody
  rw [if_neg hdecodes, if_neg (by omega)]

/-- Settles O17, from the rule of each body. -/
theorem trainingCommandsIssue : Obligations.TrainingCommandsIssue := by
  refine fun q s r hstart => ⟨?set, ?inc, ?zfill, ?gauge⟩
  case set =>
    rintro v j rfl hnow
    exact onDev_issues hstart rfl hnow
  case inc => exact fun j hroom hj hnow => zstepInc_adds hstart hroom hj hnow
  case zfill =>
    rintro f a len bs j hpos hmax hthresh htensor hlow hhigh hdst hlen halign hbench rfl rfl hnow
    exact onDev_issues hstart
      (zfillBody_writes hpos hmax hthresh htensor hlow hhigh hdst hlen halign hbench) hnow
  case gauge =>
    rintro f slot w j hknown hwidth hpanel hgslot hslot hfree hcount rfl hwrite hnow
    exact onDev_issues hstart
      ((gaugeResetBody_writes hknown hwidth hpanel hgslot hslot hfree hcount).trans hwrite) hnow

/-! ### The test vector (R137) -/

/-- The keys of the test vector's seed and stream. -/
def testKey : Quad := (0x00000003, 0x00000007, 0x00000002, 0x6A3B91E3)

/-- The words of the test vector's counter. -/
def testCounter : Quad := (0x00000004, 0x00001100, 0x00000005, 0x00000000)

theorem zhevudInject_testVector :
    zhevudInject testCounter testKey 0 = (0x00000007, 0x00001107, 0x00000007, 0x6A3B91E3) := by decide

theorem zhevudRounds_testVector :
    (List.range 8).map (fun n => (List.range (n + 1)).foldl (zhevudRound testKey) (zhevudInject testCounter testKey 0)) =
      [(0x0000110E, 0x0EDE24B8, 0x701DAD4E, 0x701DAD47), (0x0EDE35CD, 0x36D7FF49, 0x0B5C3CB8, 0x3102FD8B),
       (0x45B63516, 0xC7849DBF, 0x812F0FDA, 0x75D2D322), (0x0D3AD2D7, 0xEA77773B, 0xBB2F8DBB, 0x3A007DE7),
       (0xF7B24A12, 0xEAE81D79, 0xD72A7494, 0x1BFAE6D9), (0x4CD5F96E, 0xEF5B0DF1, 0x0189A0AB, 0x2A5F2C15),
       (0x3C31075F, 0x713D555B, 0xBA36C904, 0xB8AD2859), (0xAD6E5CBD, 0xA4C5F6E2, 0x1CEF37A2, 0xCCF40083)] := by
  decide

theorem zhevud_testVector :
    zhevud 0x0000000700000003 2 (5#64 ++ 0x11#24 ++ 4#40) = 0xCCF400831CEF37A2A4C5F6E2AD6E5CBD := by
  decide

/-- The output of the test vector serves the eight positions from 32 on. -/
theorem zhevudValue_testVector {i : Nat} (hi : i < 8) :
    zhevudValue 0x0000000700000003 2 5 0x11 (32 + i) =
      (BitVec.extractLsb' (16 * i) 16 0xCCF400831CEF37A2A4C5F6E2AD6E5CBD#128).toNat := by
  have hblock : (32 + i) / 8 = 4 := by omega
  have hplace : (32 + i) % 8 = i := by omega
  rw [zhevudValue, hblock, hplace]
  exact congrArg (fun y => (y.extractLsb' (16 * i) 16).toNat) zhevud_testVector

theorem convert_testVector :
    (convert 3 .sr false 0x5CBD false (decodeElem 7 0x3DCCCCCD)).bits = 0x1D
      ∧ (convert 3 .sr false 0x0083 false (decodeElem 7 0x3DCCCCCD)).bits = 0x1C := by decide

/-- Settles O59: the states and the output are computed, and the values are cut from the output. -/
theorem zhevudTestVector : Obligations.ZhevudTestVector := by
  rintro k x rfl rfl
  refine ⟨zhevudInject_testVector, zhevudRounds_testVector, zhevud_testVector, ?values, convert_testVector⟩
  case values =>
    calc (List.range 8).map (fun i => zhevudValue 0x0000000700000003 2 5 0x11 (32 + i))
      _ = (List.range 8).map (fun i =>
            (BitVec.extractLsb' (16 * i) 16 0xCCF400831CEF37A2A4C5F6E2AD6E5CBD#128).toNat) :=
          List.map_congr_left fun i hi => zhevudValue_testVector (List.mem_range.1 hi)
      _ = [0x5CBD, 0xAD6E, 0xF6E2, 0xA4C5, 0x37A2, 0x1CEF, 0x0083, 0xCCF4] := by decide

end Sys2Proof.Machine
end

section
/-!
PROOF. The Planer (R154, R157, R159, R164 to R168, R170, R286; log entry 44): what PLANE hands over, which held
PLANE a Planer serves, and one rule per way in which the attempt at its panel can go.
-/

namespace Sys2Proof.Machine

/-! ### PLANE -/

/-- Reading the table at each operand that a PLANE names is reading it at the named ones in their order. -/
theorem foldl_tableRead_named {g : Job → Option Stepped → Job}
    (hsome : ∀ j h, g j (some h) = j.tableRead (steppedVal j.loops h)) (hnone : ∀ j, g j none = j)
    (hs : List (Option Stepped)) (j : Job) :
    hs.foldl g j = (hs.filterMap id).foldl (fun j h => j.tableRead (steppedVal j.loops h)) j := by
  induction hs generalizing j with
  | nil => rfl
  | cons h hs ih =>
    cases h with
    | none => exact (ih _).trans (by rw [hnone]; rfl)
    | some h => exact (ih _).trans (by rw [hsome]; rfl)

section

variable {f : PlaneF} {ds : List (Option Desc192)} {cfgs : List (Nat × Nat × Int)} {j j2 : Job}
  (hdecode : planeDecodeOk f = true)
  (hdescs : planeDescs j [some f.g, some f.p, f.off, some f.mm, f.vv] = .ok ds)
  (hoperands : planeOperandsOk f ds = true) (hwritable : planeWritable ds = true)
  (hgauges : planeGauges f ds (([some f.g, some f.p, f.off, some f.mm, f.vv].filterMap id).foldl
    (fun j h => j.tableRead (steppedVal j.loops h)) j) = .ok (cfgs, j2))

include hdecode hdescs hoperands hwritable hgauges

theorem planeBody_empty (hnone : f.nPanels = 0) : planeBody f j = .ok j2 := by
  simp only [planeBody, foldl_tableRead_named, hdecode, hdescs, hoperands, hwritable, hgauges, hnone, Bool.not_true,
    Bool.false_eq_true, if_false, if_true, implies_true]

/-- Checked operands go to a Planer that holds no PLANE of the same core and context (R154). -/
theorem planeBody_hands (hsome : f.nPanels ≠ 0)
    (hfree : ∀ p ∈ mapGet [] j2.d.planers (j2.core / 8), ¬ (p.core = j2.core ∧ p.ctx = j2.ctx)) :
    planeBody f j = .ok { j2 with
      held := true
      later := true
      d := { j2.d with
        planers := mapPut [] (j2.core / 8) (mapGet [] j2.d.planers (j2.core / 8) ++ [{
          core := j2.core, ctx := j2.ctx, tag := j2.cmd.tag, cmd := some f
          descs := [some f.g, some f.p, f.off, some f.mm, f.vv].map (descImage j2)
          cfgs := cfgs, zstep := j2.zstep, loops := j2.loops }]) j2.d.planers } } := by
  have hnotHeld : ¬ (mapGet [] j2.d.planers (j2.core / 8)).any (fun p => p.core == j2.core && p.ctx == j2.ctx) := by
    simpa using hfree
  simp only [planeBody, foldl_tableRead_named, hdecode, hdescs, hoperands, hwritable, hgauges, hsome, hnotHeld,
    Bool.not_true, Bool.false_eq_true, if_false, implies_true]

end

/-! ### Which PLANE a Planer serves -/

/-- A Planer serves the first PLANE that it may, and those that it passes by go behind the others. -/
theorem planerPanelAt_serves {k : Nat} {d : Dev} {p : PlanerJob} {idle tail : List PlanerJob}
    (hheld : mapGet [] d.planers k = idle ++ p :: tail) (hidle : ∀ x ∈ idle, panelReady d k x = false)
    (hready : panelReady d k p = true) : planerPanelAt k d = panelTry k p (tail ++ idle) d := by
  have hpassed : (idle ++ p :: tail).takeWhile (fun x => !panelReady d k x) = idle := by
    rw [List.takeWhile_append_of_pos (fun x hx => by simp [hidle x hx]), List.takeWhile_cons_of_neg (by simp [hready]),
      List.append_nil]
  simp only [planerPanelAt, hheld, hpassed, List.drop_left]

theorem execPlanerPanel_serves {cluster : Nat} {s : State} {p : PlanerJob} {idle tail : List PlanerJob}
    (hcluster : cluster < 20) (hheld : mapGet [] s.dev.planers cluster = idle ++ p :: tail)
    (hidle : ∀ x ∈ idle, panelReady s.dev cluster x = false) (hready : panelReady s.dev cluster p = true) :
    exec (.planerPanel cluster) s = .next { s with dev := panelTry cluster p (tail ++ idle) s.dev } :=
  (if_pos (decide_eq_true hcluster)).trans (next_dev_congr s (planerPanelAt_serves hheld hidle hready))

/-! ### The attempt at a panel -/

/-- The presence and freeze bits with which an attempt at a panel works, and the job that has them: an earlier attempt
kept them (R286), or they are read. -/
inductive HeldMasks (p : PlanerJob) (f : PlaneF) (panel n : Nat) (d : Dev) : Bool → List Bool → Job → Prop
  | kept {frozen : List Bool} (hmask : p.mask = some frozen) : HeldMasks p f panel n d true frozen (planeJob p d)
  | read {present : Bool} {frozen : List Bool} {j : Job} (hmask : p.mask = none)
    (hread : panelMasks f panel n (planeJob p d) = .ok (present, frozen, j)) : HeldMasks p f panel n d present frozen j

section

variable {k : Nat} {p : PlanerJob} {rest : List PlanerJob} {f : PlaneF} {panel : Nat} {t : PanelTens} {d : Dev}
  {frozen : List Bool} {j : Job} (htens : panelTens p = some (f, panel, t))

include htens

theorem panelTry_passesOver {present : Bool} (hmasks : HeldMasks p f panel t.n d present frozen j)
    (h : present = false ∨ ∀ b ∈ frozen, b = true) : panelTry k p rest d = panelNext k p rest j.d := by
  have hpassed : (!present || frozen.all (fun b => b)) = true := by simpa using h
  cases hmasks <;> simp only [panelTry, if_true, *]

variable (hmasks : HeldMasks p f panel t.n d true frozen j) (hlive : frozen.all (fun b => b) = false)
  {lines : List Nat} {j2 : Job} {e : Dev} (hlines : glueLinesOf (panelRanges f panel t) j = .ok (lines, j2))

include hmasks hlive hlines

/-- A panel whose lines are not all taken keeps its masks and its place at the back of the round (R167, R286). -/
theorem panelTry_waits (htake : takeLines (panelGlue p j2.d) lines j2.d = (false, e)) :
    panelTry k p rest d =
      { e with planers := mapPut [] k (rest ++ [{ p with mask := some frozen }]) e.planers } := by
  cases hmasks <;> simp only [panelTry, Bool.not_true, Bool.false_or, Bool.false_eq_true, if_false, *]

variable (htake : takeLines (panelGlue p j2.d) lines j2.d = (true, e))

include htake

/-- A deck that cannot apply ends the PLANE (R168, R280; log entry 44). -/
theorem panelTry_fails (hcannot : deckCannot e lines = true) :
    panelTry k p rest d = planeFail p { cls := poisonCls } e := by
  cases hmasks <;> simp only [panelTry, Bool.not_true, Bool.false_or, Bool.false_eq_true, if_false, if_true, *]

variable (hcan : deckCannot e lines = false)

include hcan

/-- After a panel that NONFINITE skips the PLANE goes on with the state of that panel's work (R166). -/
theorem panelTry_skips {e2 : Dev} (hwork : panelWork p f panel t frozen { j2 with d := e } = .ok (.skipped e2)) :
    panelTry k p rest d = panelNext k p rest e2 := by
  cases hmasks <;> simp only [panelTry, Bool.not_true, Bool.false_or, Bool.false_eq_true, if_false, *]

/-- A panel that commits adds its counts to those of the PLANE (R164). -/
theorem panelTry_commits {j3 : Job} (hwork : panelWork p f panel t frozen { j2 with d := e } = .ok (.done j3)) :
    panelTry k p rest d = panelNext k { p with gauge := p.gauge ++ j3.gauge } rest j3.d := by
  cases hmasks <;> simp only [panelTry, Bool.not_true, Bool.false_or, Bool.false_eq_true, if_false, *]

end

/-- Settles O18, from what PLANE hands over, which PLANE a Planer serves and how the attempt at its panel goes. -/
theorem planerActs : Obligations.PlanerActs := by
  refine ⟨?plane, ?panel⟩
  case plane =>
    rintro q f s r ds cfgs j1 j2 hstart hdecode hdescs rfl hoperands hwritable hgauges
    refine ⟨fun hnone hnow => ?empty, ?hands⟩
    case empty => exact onDev_issues hstart (planeBody_empty hdecode hdescs hoperands hwritable hgauges hnone) hnow
    case hands =>
      rintro hsome hfree p j rfl rfl hnow
      exact onDev_issues hstart (planeBody_hands hdecode hdescs hoperands hwritable hgauges hsome hfree) hnow
  case panel =>
    intro cluster s p idle tail f panel t present frozen j1 hcluster hheld hidle hready htens hread
    have hmasks : HeldMasks p f panel t.n s.dev present frozen j1 := by
      split at hread
      next fb hmask =>
        cases hread
        exact .kept hmask
      next hmask => exact .read hmask hread
    rw [execPlanerPanel_serves hcluster hheld hidle hready]
    refine ⟨fun hpassed => next_dev_congr s (panelTry_passesOver htens hmasks hpassed), ?attempt⟩
    rintro rfl hfrozen lines j2 taken e hlines htake
    have hlive : frozen.all (fun b => b) = false := by simpa using hfrozen
    refine ⟨?waits, ?fails, ?works⟩
    case waits =>
      rintro rfl
      exact next_dev_congr s (panelTry_waits htens hmasks hlive hlines htake)
    case fails =>
      rintro rfl hcannot
      exact next_dev_congr s (panelTry_fails htens hmasks hlive hlines htake hcannot)
    case works =>
      rintro rfl hcan
      exact ⟨fun e2 hwork => next_dev_congr s (panelTry_skips htens hmasks hlive hlines htake hcan hwork),
        fun j3 hwork => next_dev_congr s (panelTry_commits htens hmasks hlive hlines htake hcan hwork)⟩

end Sys2Proof.Machine
end

section
/-!
PROOF. Queue commands on a queue that does not accept them (R174, R200, R201, R285; log entry 9): every queue command is
a `runCmd`, which looks at the queue before anything else of the command's.
-/

namespace Sys2Proof.Machine

/-- The answer of a meaning whose unit the module has. -/
theorem onDev_next {known : Bool} {f : Dev → Dev} {s : State} {d : Dev} (hknown : known = true) (h : f s.dev = d) :
    onDev known f s = .next { s with dev := d } := by
  rw [onDev, if_pos hknown, h]

/-- A command without its waits, as a GLUE_BEGIN reruns (R285). -/
def withoutWaits (q : QCmd) : QCmd := { q with waitA := none, waitB := none }

/-- Every queue command is issued by its queue, with or without its waits, and its open glue-up then goes on. -/
theorem exec_of_queueRow {i : Instr} {q : QCmd} {accept : List Nat} (h : queueRow i = some (q, accept)) (s : State) :
    ∃ (cmd : QCmd) (engine glueOk : Bool) (ops : List Nat) (body : Job → Except Stop Job),
      (cmd = q ∨ cmd = withoutWaits q)
      ∧ exec i s = onDev (coreKnown q.core)
          (fun d => glueAfter i d (runCmd cmd accept engine glueOk [] ops body d)) s := by
  cases i with
  | glueBegin q' status =>
    cases h
    by_cases hrerun : ((queueAt s.dev q.core 3).glueLast == 5) = true
    · refine ⟨withoutWaits q, false, false, [], glueBeginBody status, .inr rfl, ?_⟩
      simp only [exec, execGlueBegin, hrerun, if_true]
      rfl
    · refine ⟨q, false, false, [], glueBeginBody status, .inl rfl, ?_⟩
      simp only [exec, execGlueBegin, hrerun]
      rfl
  | atomic q' f =>
    cases h
    exact ⟨q, true, true, [], _, .inl rfl, rfl⟩
  | glueCommit q' fail =>
    cases h
    exact ⟨q, false, true, fail.toList, _, .inl rfl, rfl⟩
  | load | gather | spanSurvey | jrawLoad | matmul | spanClose | vadd | vsub | vmul | vfma | vmin | vmax | vminnum
  | vmaxnum | vcmp | vsel | vabs | vneg | vcopysign | vcvt | vrcp | vrsqrt | vexp2 | vlog2 | vdiv | vsqrt | viadd
  | visub | viand | vior | vixor | vishl | vishr | vicmp | vspan | vspanOut | vredmax | vredmin | vfunc | store
  | scatter | epilogue | jrawStore | spanOpen | spanAdd | spanRelease | zstep | zfill | gaugeReset | plane | dvPost =>
    cases h
    exact ⟨q, true, false, [], _, .inl rfl, rfl⟩
  | _ => cases h

/-- A fetched command whose queue does not accept it fails with CMD_QUEUE. -/
theorem runCmd_wrongQueue {cmd : QCmd} {accept : List Nat} {engine glueOk : Bool} {more : List (Nat × Bool)}
    {ops : List Nat} {body : Job → Except Stop Job} {ctx : Nat} {d e : Dev} (haccept : queueNo cmd.queue ∉ accept)
    (hissuer : issuer d cmd.core (queueNo cmd.queue) = some ctx) (hfetch : fetchLines (startJob cmd ctx d) d = .ok e) :
    runCmd cmd accept engine glueOk more ops body d = failCmd (startJob cmd ctx e) { cls := cmdQueue } e := by
  have hrefused : (!accept.contains (queueNo cmd.queue)) = true := by simpa using haccept
  simp only [runCmd, hissuer, hfetch]
  rw [issueCmd, if_pos hrefused]

/-- Neither a fetch nor a failure looks at the waits of its command. -/
theorem fetchLines_withoutWaits (q : QCmd) (ctx : Nat) (d : Dev) :
    fetchLines (startJob (withoutWaits q) ctx d) d = fetchLines (startJob q ctx d) d := rfl

theorem failCmd_withoutWaits (q : QCmd) (ctx : Nat) (e : Err) (d : Dev) :
    failCmd (startJob (withoutWaits q) ctx d) e d = failCmd (startJob q ctx d) e d := rfl

/-- Settles O50: every queue command is a `runCmd`, which fails where its queue is not among those that accept it. -/
theorem wrongQueueFaults : Obligations.WrongQueueFaults := by
  intro i s q accept hrow
  obtain ⟨cmd, engine, glueOk, ops, body, hcmd, hexec⟩ := exec_of_queueRow hrow s
  rw [hexec]
  refine ⟨?refused, fun hcore => if_neg (by simpa [coreKnown] using hcore)⟩
  case refused =>
    intro hcore haccept ctx d hissuer hfetch
    refine onDev_next (decide_eq_true hcore) (congrArg (glueAfter i s.dev) ?_)
    obtain rfl | rfl := hcmd
    · exact runCmd_wrongQueue haccept hissuer hfetch
    · have hrefetch := (fetchLines_withoutWaits q ctx s.dev).trans hfetch
      rw [runCmd_wrongQueue (cmd := withoutWaits q) haccept hissuer hrefetch, failCmd_withoutWaits]

end Sys2Proof.Machine
end

section
/-!
PROOF. The control commands of any queue (R176, R178, R195 to R197, R522): what the body of each answers decides, for a
late TWAIT its failure and for a CLAMP its wait at the head.
-/

namespace Sys2Proof.Machine

section

variable {cmd : QCmd} {accept : List Nat} {engine glueOk : Bool} {more : List (Nat × Bool)} {ops : List Nat}
  {body : Job → Except Stop Job} {s : State} {r : Ready}
  (hstart : started cmd accept engine glueOk more ops s.dev = some r)

include hstart

/-- The meaning of a queue command that starts and fails. -/
theorem onDev_runCmd_fails {e : Err} (hbody : body r.job = .error (.err e)) :
    onDev (coreKnown cmd.core) (runCmd cmd accept engine glueOk more ops body) s =
      .next { s with dev := failCmd r.job e r.dev } :=
  onDev_next (decide_eq_true (started_core hstart)) (by rw [runCmd_started hstart, hbody])

/-- The meaning of a queue command that starts and reaches its CLAMP (R196). -/
theorem onDev_runCmd_atClamp {id : Nat} {qmask : BitVec 4} (hbody : body r.job = .error (.atClamp id qmask)) :
    onDev (coreKnown cmd.core) (fun d => clampMeet cmd.core (runCmd cmd accept engine glueOk more ops body d)) s =
      .next { s with
        dev := clampMeet cmd.core (headClamp cmd (queueNo cmd.queue) id qmask r.waits r.dev) } :=
  onDev_next (decide_eq_true (started_core hstart))
    (congrArg (clampMeet cmd.core) (by rw [runCmd_started hstart, hbody]))

end

/-- A LOOP that the limits of nesting and of its fields allow opens its level (R178). -/
theorem execLoop_opens {q : QCmd} {s : State} {r : Ready} {count body lines : Nat} {j : Job}
    (hstart : started q anyQueue false false [] [] s.dev = some r) (hcount : count < 2 ^ 24) (hlow : 1 ≤ body)
    (hhigh : body ≤ 255) (hdepth : (queueAt r.job.d r.job.core r.job.q).loops.length < 4)
    (hfits : ∀ l ∈ (queueAt r.job.d r.job.core r.job.q).loops.head?, l.pos + 1 + body ≤ l.body)
    (hj : j = { r.job with imm := true, loop := some (count, body, lines) }) (hnow : issuesNow r j = true) :
    exec (.loop q count body lines) s = .next { s with dev := issued r j } := by
  subst hj
  refine onDev_issues hstart ?_ hnow
  have hdecodes : ¬ (2 ^ 24 ≤ count ∨ body < 1) := by omega
  simp only [if_neg hdecodes]
  cases hloops : (queueAt r.job.d r.job.core r.job.q).loops with
  | nil => simp [Nat.not_lt.2 hhigh]
  | cons l ls =>
    rw [hloops] at hdepth hfits
    have hroom : ls.length < 3 := Nat.lt_of_succ_lt_succ hdepth
    simp [Nat.not_lt.2 hhigh, Nat.not_le.2 hroom, hfits l rfl]

/-- A TWAIT whose time is in range and has come (R197). -/
structure TwaitDue (t : Stepped) (frac : BitVec 16) (launchMode : Bool) (j : Job) : Prop where
  baseLow : 0 ≤ t.base
  baseHigh : t.base < 2 ^ 64
  low : 0 ≤ steppedVal j.loops t
  high : steppedVal j.loops t < 2 ^ 64
  come : twaitTarget j t frac launchMode ≤ j.d.kt.now

theorem TwaitDue.inRange {t : Stepped} {frac : BitVec 16} {launchMode : Bool} {j : Job}
    (h : TwaitDue t frac launchMode j) :
    [t.base, steppedVal j.loops t].any (fun x => decide (x < 0) || decide ((2 : Int) ^ 64 ≤ x)) = false := by
  simpa [Int.not_lt.2 h.baseLow, Int.not_lt.2 h.low] using ⟨h.baseHigh, h.high⟩

/-- Whether a TWAIT is late: its time had passed when it could first issue (R197). -/
def twaitLate (t : Stepped) (frac : BitVec 16) (launchMode : Bool) (j : Job) : Bool :=
  decide (twaitTarget j t frac launchMode < j.d.kt.now) && !twaitHeld j

/-- The module after the trace record of a TWAIT that is late (R522). -/
def twaitTraced (t : Stepped) (frac : BitVec 16) (launchMode : Bool) (j : Job) : Dev :=
  if twaitLate t frac launchMode j then trace j.core j.q 3 j.ctx j.cmd.tag j.loops j.zstep j.d else j.d

section

variable {q : QCmd} {s : State} {r : Ready} {t : Stepped} {frac : BitVec 16} {launchMode lateFault : Bool}
  (hstart : started q anyQueue false false [] [] s.dev = some r) (hdue : TwaitDue t frac launchMode r.job)

include hstart hdue

theorem execTwait_goesOn (hfault : (twaitLate t frac launchMode r.job && lateFault) = false)
    (hnow : issuesNow r { r.job with imm := true, d := twaitTraced t frac launchMode r.job } = true) :
    exec (.twait q t frac launchMode lateFault) s =
      .next { s with dev := issued r { r.job with imm := true, d := twaitTraced t frac launchMode r.job } } := by
  refine onDev_issues hstart ?_ hnow
  have hcome := hdue.come
  simp only [twaitLate] at hfault
  simp only [hdue.inRange, hfault, Bool.false_eq_true, if_false]
  rw [if_neg (by omega), if_neg (Nat.not_lt.2 hcome)]
  rfl

theorem execTwait_fails (hfault : (twaitLate t frac launchMode r.job && lateFault) = true) :
    exec (.twait q t frac launchMode lateFault) s =
      .next { s with
        dev := failCmd r.job { cls := cmdLate, dev := some (twaitTraced t frac launchMode r.job) } r.dev } := by
  refine onDev_runCmd_fails hstart ?_
  have hcome := hdue.come
  simp only [twaitLate] at hfault
  simp only [hdue.inRange, hfault, Bool.false_eq_true, if_false, if_true]
  rw [if_neg (by omega), if_neg (Nat.not_lt.2 hcome)]
  rfl

end

/-- A CLAMP whose ID and QMASK meet no other one's waits at the head of its queue, and the meetings of its core that are
then complete go on (R196). -/
theorem execClamp_waits {q : QCmd} {s : State} {r : Ready} {qmask : BitVec 4} {id : Nat}
    (hstart : started q anyQueue false false [] [] s.dev = some r) (hid : id ≤ 7)
    (hown : qmask.getLsbD r.job.q = true) (hmeets : clampClash r.job.d r.job.core r.job.q id qmask = false) :
    exec (.clamp q qmask id) s =
      .next { s with dev := clampMeet q.core (headClamp q (queueNo q.queue) id qmask r.waits r.dev) } := by
  refine onDev_runCmd_atClamp hstart ?_
  simp [Nat.not_lt.2 hid, hown, hmeets]

/-- Settles O4: the body of each command, which its start runs. -/
theorem controlCommandsIssue : Obligations.ControlCommandsIssue := by
  intro q s r
  refine ⟨?unwaited, ?fwait, ?flags, ?rest⟩
  case unwaited =>
    refine fun hstart => ⟨fun hnow => onDev_issues hstart rfl hnow, ?tmark⟩
    case tmark =>
      obtain ⟨rfl, _, _⟩ := started_job hstart
      rintro j rfl hnow
      exact onDev_issues hstart rfl hnow
  case fwait => exact fun flags hfour hstart hnow => onDev_issues hstart (if_neg (Nat.not_lt.2 hfour)) hnow
  case flags =>
    exact fun flags hfour hstart => ⟨fun hnow => onDev_issues hstart (if_neg (Nat.not_lt.2 hfour)) hnow,
      fun hnow => onDev_issues hstart (if_neg (Nat.not_lt.2 hfour)) hnow⟩
  case rest =>
    refine fun hstart => ⟨?loop, ?qend, ?twait, ?clamp⟩
    case loop =>
      exact fun count body lines hcount hlow hhigh hdepth hfits j hj hnow =>
        execLoop_opens hstart hcount hlow hhigh hdepth hfits hj hnow
    case qend =>
      rintro hempty j rfl hnow
      exact onDev_issues hstart (if_pos hempty) hnow
    case twait =>
      obtain ⟨rfl, _, _⟩ := started_job hstart
      rintro t frac launchMode lateFault late hbaseLow hbaseHigh hlow hhigh hcome rfl d rfl
      have hdue : TwaitDue t frac launchMode r.job := ⟨hbaseLow, hbaseHigh, hlow, hhigh, hcome⟩
      refine ⟨fun hfault => execTwait_fails hstart hdue hfault, ?goesOn⟩
      rintro j hfault rfl hnow
      exact execTwait_goesOn hstart hdue hfault hnow
    case clamp => exact fun qmask id hid hown hmeets => execClamp_waits hstart hid hown hmeets

end Sys2Proof.Machine
end

section
/-!
PROOF. Engine events (R106, R176, R180, R323), plain accesses at the home deck of their line (R243, R259, R260, R262,
R279) and memory errors of a core (R231, R233): one rule per way in which a completion, a stall or an access goes.
-/

namespace Sys2Proof.Machine

/-! ### Completion and the stall watchdog -/

/-- The oldest command of a queue completes while its context is resident, or while an M queue drains for a switch
(R106). -/
theorem completeOldest_completes {core q ctx : Nat} {f : Flight} {rest : List Flight} {d : Dev}
    (hctx : (coreAt d core).resident = some ctx)
    (hstate : (ctxAt d ctx).state = .resident ∨ ((ctxAt d ctx).state = .draining ∧ q = 1))
    (hflight : (queueAt d core q).inflight = f :: rest) (hheld : f.held = false) :
    completeOldest core q d = clampMeet core (drainQueue ctx core q (completeFlight ctx core q f rest d)) := by
  simp only [completeOldest, hctx, hflight, hheld]
  rw [if_pos hstate, if_neg Bool.false_ne_true]

theorem stallFire_fires {core q ctx t : Nat} {d : Dev} (hctx : (coreAt d core).resident = some ctx)
    (hstate : (ctxAt d ctx).state = .resident) (hstall : stallSince (queueAt d core q) = some t)
    (hover : t + wdogMs (ctxAt d ctx) * 1000000 ≤ nowNs d) :
    stallFire core q d =
      hangTrigger 1 ctx (faultCtx ctx { stallRecord d ctx core q with trig := hangFree d } d) := by
  simp only [stallFire, hctx, hstall]
  rw [if_pos hstate, if_pos hover]

/-! ### An access whose tag is read (R259, R260) -/

section

variable {f : DeckF} {line : Nat} {d : Dev}

theorem deckTake_of_holds {host : Bool} (h : deckHolds d host line = true) (whole : Bool) :
    deckTake host line whole d = deckTouch host line false d := if_pos h

/-- What stood in the way that a line takes is written back. -/
def makeRoom (d : Dev) : Option DeckLine → Dev
  | some v => deckEvict v d
  | none => d

/-- A line that its deck does not hold takes a way, with the poison of its memory. -/
theorem deckTake_of_victim {host : Bool} {v : Option DeckLine} (hmiss : deckHolds d host line = false)
    (hreach : (if host then !d.hostp.link else hbmLost d line) = false)
    (hvictim : victimOf d (setKey d host line) = some v) :
    deckTake host line false d = deckFilled host line (memPoisoned (makeRoom d v) host line) (makeRoom d v) := by
  simp only [deckTake, hmiss, hreach, hvictim, Bool.false_eq_true, if_false, Bool.not_false, Bool.true_and]
  cases v <;> rfl

/-- No write-back fails where the deck holds the line, or where at most one burst does (R241). -/
theorem victimFails_none (h : deckHolds d f.host line = true ∨ f.wbFail < 2) : victimFails f line d = d := by
  obtain hholds | hback := h
  · simp only [victimFails, hholds, Bool.true_or, if_true]
  · have hkept : decide (2 ≤ f.wbFail) = false := decide_eq_false (Nat.not_le.2 hback)
    unfold victimFails
    rcases victimOf d (setKey d f.host line) with _ | _ | v <;>
      simp only [hkept, Bool.and_false, Bool.false_eq_true, if_false, ite_self]

theorem deckServe_hit (hread : f.write = none) (hholds : deckHolds d f.host line = true) :
    deckServe f line d = deckTouch f.host line false d := by
  simp only [deckServe, victimFails_none (.inl hholds), hread, hholds, deckTake_of_holds hholds, Bool.true_or, if_true]

theorem deckServe_miss (hread : f.write = none) (hmiss : deckHolds d f.host line = false) (hback : f.wbFail < 2) :
    deckServe f line d = deckFill f line (deckTake f.host line false d) := by
  simp only [deckServe, victimFails_none (.inr hback), hread, hmiss, Bool.false_or, Bool.false_eq_true, if_false]

/-- A write fills its line first, unless the deck holds it or the write covers it. -/
theorem deckServe_write {data : BitVec 512} {mask : BitVec 64} (hwrite : f.write = some (data, mask))
    (hback : f.wbFail < 2) :
    deckServe f line d =
      deckStore f.host line data mask
        (if deckHolds d f.host line = true ∨ mask = BitVec.allOnes 64
          then deckTake f.host line (mask == BitVec.allOnes 64) d
          else deckFill f line (deckTake f.host line (mask == BitVec.allOnes 64) d)) := by
  simp only [deckServe, victimFails_none (.inr hback), hwrite, Bool.or_eq_true, beq_iff_eq]

end

theorem deckDataError_double (host : Bool) (line bit : Nat) (d : Dev) :
    deckDataError host line bit true d =
      fillPoison host line (raiseFields deckUe (unitCluster (homeDeck d.hbmc host line)) none
        [(homeDeck d.hbmc host line, 5), (line, 48)] d) := rfl

/-- Which way the record of a corrected error names is free. -/
theorem deckDataError_single (host : Bool) (line bit : Nat) (d : Dev) :
    deckDataError host line bit false d =
      raiseFields deckCe (unitCluster (homeDeck d.hbmc host line)) none
        [(homeDeck d.hbmc host line, 5), (deckSet line / 512, 4), (deckSet line % 512, 9),
          (Config.freeNat d.free % 12, 4), (bit, 10)]
        { d with free := d.free + 1 } := rfl

/-! ### The memory of a line -/

/-- The memory that holds the value of a line. -/
def lineMem (host : Bool) (d : Dev) : Mem := if host then d.host else d.hbm

section

variable (side host : Bool) (line : Nat) (d : Dev)

@[simp] theorem lineMem_deckTouch (dirty : Bool) : lineMem side (deckTouch host line dirty d) = lineMem side d := rfl

@[simp] theorem lineMem_markMem (po : Bool) : lineMem side (markMem host line po d) = lineMem side d := by
  unfold markMem
  split <;> rfl

@[simp] theorem lineMem_hostCleaned : lineMem side (hostCleaned line d) = lineMem side d := by
  unfold hostCleaned
  split
  · simp only []
    split
    · exact lineMem_markMem side true line { d with free := d.free + 1 } false
    · rfl
  · rfl

@[simp] theorem lineMem_cleanLine : lineMem side (cleanLine host line d) = lineMem side d := by
  unfold cleanLine
  split
  · rfl
  · split
    · exact lineMem_hostCleaned side line d
    · exact lineMem_markMem side false line d false

@[simp] theorem lineMem_deckDirty : lineMem side (deckDirty host line d) = lineMem side d := by
  unfold deckDirty
  split
  · split <;> rfl
  · rfl

end

/-- The masked bytes stored in the memory of a line. -/
def storeMasked (host : Bool) (line : Nat) (data : BitVec 512) (mask : BitVec 64) (d : Dev) : Dev :=
  if host then { d with host := memWriteMask d.host line mask.toNat (leBytes 64 data.toNat) }
  else { d with hbm := memWriteMask d.hbm line mask.toNat (leBytes 64 data.toNat) }

@[simp] theorem lineMem_storeMasked (host : Bool) (line : Nat) (data : BitVec 512) (mask : BitVec 64) (d : Dev) :
    lineMem host (storeMasked host line data mask d) =
      memWriteMask (lineMem host d) line mask.toNat (leBytes 64 data.toNat) := by
  cases host <;> simp [lineMem, storeMasked]

/-- A write that its deck takes makes the held line dirty and stores its bytes; a whole one clears the line's poison. -/
theorem deckStore_of_holds {host : Bool} {line : Nat} {d e : Dev} {data : BitVec 512} {mask : BitVec 64}
    (hholds : deckHolds d host line = true) (hkept : writeLost d host line = false)
    (he : e = storeMasked host line data mask (deckDirty host line (deckTouch host line false d))) :
    deckStore host line data mask d = if mask == BitVec.allOnes 64 then cleanLine host line e else e := by
  subst he
  rw [deckStore, hkept, deckTake_of_holds hholds]
  rfl

/-- The masked bytes of a write that its deck takes reach the line. -/
theorem lineMem_deckStore {host : Bool} {line : Nat} {d : Dev} (hholds : deckHolds d host line = true)
    (hkept : writeLost d host line = false) (data : BitVec 512) (mask : BitVec 64) :
    lineMem host (deckStore host line data mask d) =
      memWriteMask (lineMem host d) line mask.toNat (leBytes 64 data.toNat) := by
  rw [deckStore_of_holds hholds hkept rfl]
  split <;> simp

/-! ### DECK_ACCESS -/

/-- A plain access that reaches its line with no error in its tag: a host line goes on from the module as it is, an HBM
line that no glue-up holds after the open glue-ups that have marked it are aborted (R279). -/
structure DeckReached (f : DeckF) (line : Nat) (d e : Dev) : Prop where
  line_eq : line = lineOf f.line
  tagErr : f.tagErr = none
  tagCe : f.tagCe = none
  host : f.host = true → e = d
  hbm : f.host = false → line < hbmSpan d.hbmc ∧ lineHeld d line = false ∧ e = plainAccess [line] d

theorem DeckReached.goesOn {f : DeckF} {line : Nat} {d e : Dev} (h : DeckReached f line d e) :
    (!f.host && (decide (hbmSpan d.hbmc ≤ line) || lineHeld d line)) = false
      ∧ (if f.host then d else plainAccess [line] d) = e := by
  cases hhost : f.host with
  | true => exact ⟨rfl, (h.host hhost).symm⟩
  | false =>
    obtain ⟨hspan, hheld, he⟩ := h.hbm hhost
    exact ⟨by simp [hheld, hspan], he.symm⟩

section

variable {f : DeckF} {line : Nat} {s : State} {e : Dev} (hknown : f.line < 2 ^ 48) (h : DeckReached f line s.dev e)

include hknown h

theorem execDeckAccess_clean (hdata : f.dataErr = none) {d : Dev} (hserve : deckServe f line e = d) :
    exec (.deckAccess f) s = .next { s with dev := d } := by
  obtain ⟨hopen, hstart⟩ := h.goesOn
  refine onDev_next (decide_eq_true hknown) ?_
  simp only [deckPlain, ← h.line_eq, hopen, hstart, hdata, h.tagCe, h.tagErr, Bool.false_eq_true, if_false]
  exact hserve

/-- An access that meets an error in a word of its held line goes on after the error's own effect (R262). -/
theorem execDeckAccess_dataErr {bit : Nat} {double : Bool} (hdata : f.dataErr = some (bit, double))
    (hholds : deckHolds e f.host line = true) :
    exec (.deckAccess f) s =
      .next { s with dev := deckServe f line (deckDataError f.host line bit double e) } := by
  obtain ⟨hopen, hstart⟩ := h.goesOn
  refine onDev_next (decide_eq_true hknown) ?_
  simp only [deckPlain, ← h.line_eq, hopen, hstart, hdata, hholds, h.tagCe, h.tagErr, Bool.false_eq_true, if_false,
    if_true]

end

/-! ### Memory errors of a core (R231, R233) -/

section

variable (core : Nat) (d : Dev) (bit : Nat)

theorem meetUpset_bench {a : Nat} (ha : a < benchSize) :
    meetUpset core d (.bench a bit true)
        = benchPoison core a 1 (raiseFields benchUe (unitCore core) none [(core, 8), (a / 8 * 8, 21)] d)
      ∧ meetUpset core d (.bench a bit false)
        = raiseFields benchCe (unitCore core) none [(core, 8), (a / 64 % 32, 5), (bit, 7)] d :=
  ⟨if_neg (Nat.not_le.2 ha), if_neg (Nat.not_le.2 ha)⟩

theorem meetUpset_joist {row : Nat} (hrow : row < 1024) :
    meetUpset core d (.joist row bit true)
        = setJrow core row { jrow d core row with poison := true }
            (raiseFields joistUe (unitCore core) none [(core, 8), (row, 10)] d)
      ∧ meetUpset core d (.joist row bit false)
        = raiseFields joistCe (unitCore core) none [(core, 8), (row, 10), (bit, 7)] d :=
  ⟨if_neg (Nat.not_le.2 hrow), if_neg (Nat.not_le.2 hrow)⟩

end

/-- Settles O20, from the rule of each event. -/
theorem engineAndDeckEvents : Obligations.EngineAndDeckEvents := by
  refine ⟨?engine, ?access, ?errors, ?upsets⟩
  case engine =>
    intro core queue s ctx hcore hctx
    refine ⟨?completes, ?stalls⟩
    case completes =>
      intro f rest hstate hflight hheld
      have hqueue : (ctxAt s.dev ctx).state = .resident
          ∨ ((ctxAt s.dev ctx).state = .draining ∧ queueNo queue = 1) :=
        hstate.imp_right (And.imp_right (congrArg queueNo))
      exact onDev_next (decide_eq_true hcore) (completeOldest_completes hctx hqueue hflight hheld)
    case stalls =>
      exact fun t hstate hstall hover =>
        onDev_next (decide_eq_true hcore) (stallFire_fires hctx hstate hstall hover)
  case access =>
    intro f s line d e hknown hline hhost hhbm htagErr htagCe hdata
    have hreached : DeckReached f line s.dev d := ⟨hline, htagErr, htagCe, hhost, hhbm⟩
    refine ⟨?hit, ?miss, ?write, ?take, ?store⟩
    case hit =>
      rintro hread hholds rfl
      exact execDeckAccess_clean hknown hreached hdata (deckServe_hit hread hholds)
    case miss =>
      rintro hread hmiss hback rfl
      exact execDeckAccess_clean hknown hreached hdata (deckServe_miss hread hmiss hback)
    case write =>
      rintro data mask t hwrite hback rfl rfl
      exact execDeckAccess_clean hknown hreached hdata (deckServe_write hwrite hback)
    case take =>
      intro v hmiss hreach hvictim
      rw [deckTake_of_victim hmiss hreach hvictim]
      cases v <;> rfl
    case store => exact fun data mask hholds hkept => lineMem_deckStore hholds hkept data mask
  case errors =>
    rintro f s line d bit k hknown hline htagErr htagCe hhost hhbm hholds rfl
    have hreached : DeckReached f line s.dev d := ⟨hline, htagErr, htagCe, hhost, hhbm⟩
    refine ⟨fun hdata => ?double, fun hdata => ⟨Config.freeNat d.free % 12, Nat.mod_lt _ (by decide), ?single⟩⟩
    case double =>
      rw [execDeckAccess_dataErr hknown hreached hdata hholds, deckDataError_double]
    case single =>
      rw [execDeckAccess_dataErr hknown hreached hdata hholds, deckDataError_single]
  case upsets =>
    exact fun core d bit =>
      ⟨fun a ha => meetUpset_bench core d bit ha, fun row hrow => meetUpset_joist core d bit hrow⟩

end Sys2Proof.Machine
end

section
/-!
PROOF. Descriptors that complete at once, XLATE_FLUSH and FLAG_WAIT (R184, R333, R435, R437, R438): one rule per way in
which the start of a descriptor goes.
-/

namespace Sys2Proof.Machine

/-- Each row of the descriptors that complete at once is the shared start of its kind. -/
theorem exec_of_simpleRow {i : Instr} {ring kind : Nat} (h : simpleRow i = some (ring, kind)) (s : State) :
    exec i s = onDev (ringKnown ring) (startSimple kind ring) s := by
  cases i with
  | nopDescriptor | flagSet | flagClr | flagMap | flagUnmap | descMint | write64 =>
    cases h
    rfl
  | _ => cases h

section

variable {ring kind : Nat} {x : Desc} {d : Dev}

theorem startSimple_takes {e e' : Dev} (hstart : startable ring kind d = some x)
    (htake : takeMember false ((ringCtx ring).getD 0) x d = (.ok e, e')) :
    startSimple kind ring d = settleRing ring (complete ring x 0 0 (popTaken ring 1 e)) := by
  simp only [startSimple, hstart, htake]

theorem startSimple_refuses {code : Nat} {e : Dev} (hstart : startable ring kind d = some x)
    (htake : takeMember false ((ringCtx ring).getD 0) x d = (.err code, e)) :
    startSimple kind ring d = settleRing ring (complete ring x code 0 (popTaken ring 1 e)) := by
  simp only [startSimple, hstart, htake]

theorem flushStart_drops (hstart : startable ring kXlateFlush d = some x) (hform : descBad x = false)
    (hrange : bitsOf x.word 111 64 + bitsOf x.word 191 128 ≤ 2 ^ 48) :
    flushStart ring d =
      settleRing ring (complete ring x 0 0 (popTaken ring 1
        (flushRange ((ringCtx ring).getD 0) (bitsOf x.word 111 64) (bitsOf x.word 191 128) d))) := by
  have hgood : (descBad x || decide (2 ^ 48 < bitsOf x.word 111 64 + bitsOf x.word 191 128)) = false := by
    rw [hform, decide_eq_false (Nat.not_lt.2 hrange), Bool.or_false]
  simp only [flushStart, hstart, hgood, Bool.false_eq_true, if_false]

variable {e : Dev} (hlook : e = lookAll ring ((ringCtx ring).getD 0) d)
  (hstart : startable ring kFlagWait e = some x) (hform : descBad x = false) (hroom : longCount e ring < 64)

include hlook hstart hform hroom

theorem flagWaitStart_completes {code : Nat} {e' : Dev}
    (hset : lookWait ((ringCtx ring).getD 0) x e = some (code, e')) :
    flagWaitStart ring d = settleRing ring (complete ring x code 0 (popTaken ring 1 e')) := by
  simp only [flagWaitStart, ← hlook, hstart, hform, hset, Nat.not_le.2 hroom, Bool.false_eq_true, if_false]

theorem flagWaitStart_waits (hclear : lookWait ((ringCtx ring).getD 0) x e = none) :
    flagWaitStart ring d =
      settleRing ring (modRing ring (fun r => { r with waiting := r.waiting ++ [x] }) (popTaken ring 1 e)) := by
  simp only [flagWaitStart, ← hlook, hstart, hform, hclear, Nat.not_le.2 hroom, Bool.false_eq_true, if_false]

end

/-- Settles O34, from the rule of each start. -/
theorem descriptorsComplete : Obligations.DescriptorsComplete := by
  intro s x
  refine ⟨?simple, ?flush, ?wait⟩
  case simple =>
    intro i ring kind hrow hring hstart
    rw [exec_of_simpleRow hrow s]
    exact ⟨fun d e htake => onDev_next (decide_eq_true hring) (startSimple_takes hstart htake),
      fun code d htake => onDev_next (decide_eq_true hring) (startSimple_refuses hstart htake)⟩
  case flush =>
    exact fun ring hring hstart hform hrange =>
      onDev_next (decide_eq_true hring) (flushStart_drops hstart hform hrange)
  case wait =>
    exact fun ring d hring hlook hstart hform hroom =>
      ⟨fun code e hset => onDev_next (decide_eq_true hring) (flagWaitStart_completes hlook hstart hform hroom hset),
        fun hclear => onDev_next (decide_eq_true hring) (flagWaitStart_waits hlook hstart hform hroom hclear)⟩

end Sys2Proof.Machine
end

section
/-!
PROOF. Launches and submission groups (R176, R287, R361, R439, R441, R442; log entries 27 and 44): the taking of a
LAUNCH, the start of its queues, and one rule per way in which the attempt at a group goes.
-/

namespace Sys2Proof.Machine

/-! ### LAUNCH -/

theorem launchRow_takes {ring : Nat} {x : Desc} {d e : Dev} (hstart : startable ring kLaunch d = some x)
    (hform : descBad x = false) (halign : bitsOf x.word 111 64 % 64 = 0) (hroom : longCount d ring < 64)
    (htake : startLaunch ring ((ringCtx ring).getD 0) x d = .ok e) :
    launchRow ring d = settleRing ring (popTaken ring 1 e) := by
  have hgood : ¬ (descBad x = true ∨ (!aligned 64 (bitsOf x.word 111 64)) = true) := by
    simp [hform, aligned, halign]
  simp only [launchRow, hstart]
  rw [if_neg hgood, if_neg (Nat.not_le.2 hroom)]
  simp only [htake]

/-- Whether a queue that a launch starts can start now: it does not run, and no earlier launch keeps it. -/
def launchFree (ctx : Nat) (l : Launch) (d : Dev) (e : Nat × Nat) : Bool :=
  !(queueAt d (e.1 / 4) (e.1 % 4)).running
    && !((ctxAt d ctx).launches.takeWhile (fun m => m != l)).any (fun m => m.left.contains e.1)

/-- A launch whose queues that can start now have started. -/
def launchStarted (ctx : Nat) (l : Launch) (d : Dev) : Launch :=
  { launchMark d l with entries := l.entries.filter (fun e => !launchFree ctx l d e) }

/-- The module in which the queues of a launch that can start now have started. -/
def launchedDev (ctx : Nat) (l : Launch) (d : Dev) : Dev :=
  modCtx ctx (fun x => { x with launches := x.launches.map (fun m => if m == l then launchStarted ctx l d else m) })
    ((l.entries.filter (launchFree ctx l d)).foldl
      (fun d' e => startQueue d' l (l.start.getD (launchStarted ctx l d).first) e) d)

theorem launchBegin_starts {ctx : Nat} {seq : BitVec 32} {l : Launch} {d : Dev}
    (hfind : (ctxAt d ctx).launches.find? (fun l => l.seqNo == seq && (!l.begun || l.entries != [])) = some l)
    (hstate : (ctxAt d ctx).state = .resident) (hready : l.begun = false → launchReady d ctx l = true)
    (hnow : l.entries.filter (launchFree ctx l d) ≠ [] ∨ l.entries = []) :
    launchBegin ctx seq d =
      if l.left = [] then
        pushComp l.ring (launchComp (launchStarted ctx l d) 0)
          (modCtx ctx (fun x => { x with
              launches := x.launches.filter (fun m => m != launchStarted ctx l d), ran := true })
            (launchNote ctx l (launchStarted ctx l d) (launchedDev ctx l d)))
      else launchNote ctx l (launchStarted ctx l d) (launchedDev ctx l d) := by
  have hgo : (!l.begun && !launchReady d ctx l || (ctxAt d ctx).state != .resident) = false := by
    cases hbegun : l.begun with
    | true => simp [hstate]
    | false => simp [hstate, hready hbegun]
  have hsome : ¬ (decide (l.entries.filter (launchFree ctx l d) = []) && l.entries != []) = true := by
    obtain hnow | hnone := hnow
    · simp [hnow]
    · simp [hnone]
  simp only [launchBegin, hfind, hgo, Bool.false_eq_true, if_false]
  exact if_neg hsome

/-! ### Submission groups -/

section

variable {ring : Nat} {xs : List Desc} {good : Bool} {d : Dev} (hfront : groupFront ring d = some (xs, good))

include hfront

theorem groupRow_refuses (herror : groupError ring xs good ≠ 0) :
    groupRow ring d =
      groupFails ring 9 xs (xs.map (fun _ => groupError ring xs good))
        (groupRecord ring (groupError ring xs good) (xs.headD {}) d) := by
  simp only [groupRow, hfront]
  exact if_pos herror

variable (herror : groupError ring xs good = 0) (hready : groupReady d ring = true) {lines : List Nat} {e : Dev}
  (hlines : groupLines ((ringCtx ring).getD 0) d xs = some lines)

include herror hready hlines

/-- A group whose lines are not all taken stays open. -/
theorem groupRow_waits (htake : takeLines (groupGlue ring d) lines d = (false, e)) : groupRow ring d = e := by
  simp [groupRow, hfront, herror, groupTry, hlines, hready, htake]

variable (htake : takeLines (groupGlue ring d) lines d = (true, e))

include htake

/-- Where a deck cannot apply, the group's glue-up aborts with ERROR (R280; log entry 44). -/
theorem groupRow_aborts (hcannot : deckCannot e lines = true) :
    groupRow ring d = groupFails ring 8 xs (xs.map (fun _ => 0)) e := by
  simp [groupRow, hfront, herror, groupTry, hlines, hready, htake, hcannot]

theorem groupRow_runs (hcan : deckCannot e lines = false) : groupRow ring d = groupCommit ring xs d e := by
  simp [groupRow, hfront, herror, groupTry, hlines, hready, htake, hcan]

end

section

variable {ring : Nat} {xs : List Desc} {d0 d e base : Dev} {codes : List Nat}
  (hrun : runMembers ((ringCtx ring).getD 0) xs d d [] = some (codes, e, base))

include hrun

theorem groupCommit_commits {f : Dev} (hgood : ∀ c ∈ codes, c = 0)
    (hf : f = settleRing ring (popTaken ring xs.length (groupCapture ring xs (endGlue (hostGlue ring) e)))) :
    groupCommit ring xs d0 d =
      startLaunches ring ((ringCtx ring).getD 0) (xs.filter (fun x => x.kind == kLaunch))
        ((xs.filter (fun x => x.kind != kLaunch)).foldl (fun d x => complete ring x 0 0 d) f) := by
  subst hf
  have hall : codes.all (· == 0) = true := List.all_eq_true.2 fun c hc => beq_iff_eq.2 (hgood c hc)
  simp only [groupCommit, hrun, hall, if_true]

/-- A group one of whose members fails takes no effect (R442); the code 7 names poison by log entry 27. -/
theorem groupCommit_fails (hbad : ∃ c ∈ codes, c ≠ 0) (hspace : glueSpace ∉ codes) :
    groupCommit ring xs d0 d = groupFails ring (if poisonCls ∈ codes then 7 else 9) xs codes base := by
  have hnotAll : codes.all (· == 0) = false := by simpa using hbad
  have hnone : codes.find? (· == glueSpace) = none :=
    List.find?_eq_none.2 fun c hc heq => hspace (beq_iff_eq.1 heq ▸ hc)
  simp only [groupCommit, hrun, hnotAll, hnone, List.contains_iff_mem, Bool.false_eq_true, if_false]

end

/-- Settles O35, from the rule of each row. -/
theorem launchesAndGroups : Obligations.LaunchesAndGroups := by
  refine fun s => ⟨?launch, ?start, ?group⟩
  case launch =>
    exact fun ring x d hring hstart hform halign hroom htake =>
      onDev_next (decide_eq_true hring) (launchRow_takes hstart hform halign hroom htake)
  case start =>
    rintro ctx seq l free now l' d e hctx hfind hstate hready rfl rfl hnow rfl rfl rfl f rfl
    exact onDev_next (decide_eq_true hctx) (launchBegin_starts hfind hstate hready hnow)
  case group =>
    intro ring xs good hring hfront
    have hknown : ringKnown ring = true := decide_eq_true hring
    refine ⟨fun herror => onDev_next hknown (groupRow_refuses hfront herror), ?attempt⟩
    intro herror hready lines taken d hlines htake
    refine ⟨?waits, ?aborts, ?runs⟩
    case waits =>
      rintro rfl
      exact onDev_next hknown (groupRow_waits hfront herror hready hlines htake)
    case aborts =>
      rintro rfl hcannot
      exact onDev_next hknown (groupRow_aborts hfront herror hready hlines htake hcannot)
    case runs =>
      rintro rfl hcan codes e base hrun
      have hcommit := groupRow_runs hfront herror hready hlines htake hcan
      exact ⟨fun hgood f hf => onDev_next hknown (hcommit.trans (groupCommit_commits hrun hgood hf)),
        fun hbad hspace => onDev_next hknown (hcommit.trans (groupCommit_fails hrun hbad hspace))⟩

end Sys2Proof.Machine
end

section
/-!
PROOF. The HBM map (R236, R237): the range in which an address lies, the channel of a frame of a range, and what the
rotation by the frame row makes of it.
-/

namespace Sys2Proof.Machine

/-! ### Ranges (R236) -/

section

variable {h : Hbm} {base ch : Nat} {act : List Nat}

theorem mem_hbmRanges_iff :
    (base, act) ∈ hbmRanges h ↔
      (h.die = false ∧ base = 0 ∧ act = h.active)
      ∨ (h.die = true ∧ base = 0 ∧ act = h.active.filter (fun c => decide (c < 64)))
      ∨ (h.die = true ∧ base = (h.active.filter (fun c => decide (c < 64))).length * chanBytes
        ∧ act = h.active.filter (fun c => decide (64 ≤ c))) := by
  unfold hbmRanges
  cases h.die <;> simp

theorem active_length_eq_dies (h : Hbm) :
    h.active.length =
      (h.active.filter (fun c => decide (c < 64))).length + (h.active.filter (fun c => decide (64 ≤ c))).length := by
  rw [List.length_eq_length_filter_add (fun c => decide (c < 64))]
  simp only [← decide_not, Nat.not_lt]

theorem hbmRange_of_mem (hmem : (base, act) ∈ hbmRanges h) {rel : Nat} (hrel : rel < act.length * chanBytes) :
    hbmRange h (base + rel) = (rel, act) := by
  obtain ⟨hdie, rfl, rfl⟩ | ⟨hdie, rfl, rfl⟩ | ⟨hdie, rfl, rfl⟩ := mem_hbmRanges_iff.1 hmem
  · simp [hbmRange, hdie]
  · simp [hbmRange, hdie, hrel]
  · simp [hbmRange, hdie]

theorem exists_range_of_lt_span {a : Nat} (ha : a < hbmSpan h) :
    ∃ base act rel, (base, act) ∈ hbmRanges h ∧ rel < act.length * chanBytes ∧ a = base + rel := by
  simp only [mem_hbmRanges_iff]
  cases hdie : h.die with
  | false => exact ⟨0, _, a, .inl ⟨rfl, rfl, rfl⟩, ha, (Nat.zero_add a).symm⟩
  | true =>
    by_cases hlow : a < (h.active.filter (fun c => decide (c < 64))).length * chanBytes
    · exact ⟨0, _, a, .inr (.inl ⟨rfl, rfl, rfl⟩), hlow, (Nat.zero_add a).symm⟩
    · rw [hbmSpan, active_length_eq_dies, Nat.add_mul] at ha
      have hhigh := Nat.le_of_not_lt hlow
      exact ⟨_, _, _, .inr (.inr ⟨rfl, rfl, rfl⟩), Nat.sub_lt_left_of_lt_add hhigh ha, (Nat.add_sub_of_le hhigh).symm⟩

/-- The range whose channels a channel would be among: that of its die (R236). -/
def rangeOfChannel (h : Hbm) (ch : Nat) : Nat × List Nat :=
  if h.die then
    if ch < 64 then (0, h.active.filter (fun c => decide (c < 64)))
    else ((h.active.filter (fun c => decide (c < 64))).length * chanBytes, h.active.filter (fun c => decide (64 ≤ c)))
  else (0, h.active)

/-- A channel names its range, so that the ranges have no channel in common. -/
theorem eq_rangeOfChannel (hmem : (base, act) ∈ hbmRanges h) (hch : ch ∈ act) : (base, act) = rangeOfChannel h ch := by
  obtain ⟨hdie, rfl, rfl⟩ | ⟨hdie, rfl, rfl⟩ | ⟨hdie, rfl, rfl⟩ := mem_hbmRanges_iff.1 hmem
  · simp [rangeOfChannel, hdie]
  · have hlow : ch < 64 := by simpa using (List.mem_filter.1 hch).2
    simp [rangeOfChannel, hdie, hlow]
  · have hhigh : 64 ≤ ch := by simpa using (List.mem_filter.1 hch).2
    simp [rangeOfChannel, hdie, Nat.not_lt.2 hhigh]

theorem nodup_of_mem_hbmRanges (hmem : (base, act) ∈ hbmRanges h) (hnodup : h.active.Nodup) : act.Nodup := by
  obtain ⟨-, -, rfl⟩ | ⟨-, -, rfl⟩ | ⟨-, -, rfl⟩ := mem_hbmRanges_iff.1 hmem
  · exact hnodup
  · exact hnodup.filter _
  · exact hnodup.filter _

/-- A range begins with a frame, so that the addresses of a frame lie in one range. -/
theorem hbmRange_of_frame {a b : Nat} (hframe : a / 4096 = b / 4096) :
    (hbmRange h a).1 / 4096 = (hbmRange h b).1 / 4096 ∧ (hbmRange h a).2 = (hbmRange h b).2 := by
  cases hdie : h.die with
  | false => simp [hbmRange, hdie, hframe]
  | true =>
    have hside : a < (h.active.filter (fun c => decide (c < 64))).length * chanBytes ↔
        b < (h.active.filter (fun c => decide (c < 64))).length * chanBytes := by
      rw [chanBytes]
      omega
    simp only [hbmRange, hdie, if_true, hside]
    split
    · exact ⟨hframe, rfl⟩
    · refine ⟨?_, rfl⟩
      simp only [chanBytes]
      omega

end

/-! ### Channels of a range's frames (R237) -/

/-- The channel of a frame of a range: that of its slot, rotated by its row. -/
def frameChannel (act : List Nat) (f : Nat) : Nat := act.getD ((f + f / act.length) % act.length) 0

/-- Whatever the rotation, a channel of the range has its slot. -/
theorem exists_slot {act : List Nat} {ch : Nat} (hch : ch ∈ act) (k : Nat) :
    ∃ n < act.length, act.getD ((k + n) % act.length) 0 = ch := by
  obtain ⟨i, hi, rfl⟩ := List.mem_iff_getElem.1 hch
  have hpos : 0 < act.length := Nat.zero_lt_of_lt hi
  have hsum : k + (i + (act.length - k % act.length)) = i + act.length * (k / act.length + 1) := by
    have hk := Nat.div_add_mod k act.length
    have hlt := Nat.mod_lt k hpos
    rw [Nat.mul_add_one]
    omega
  refine ⟨(i + (act.length - k % act.length)) % act.length, Nat.mod_lt _ hpos, ?_⟩
  rw [Nat.add_mod_mod, hsum, Nat.add_mul_mod_self_left, Nat.mod_eq_of_lt hi, List.getD_eq_getElem _ _ hi]

section

variable {act : List Nat}

theorem frameChannel_mem (hpos : 0 < act.length) (f : Nat) : frameChannel act f ∈ act := by
  rw [frameChannel, List.getD_eq_getElem _ _ (Nat.mod_lt _ hpos)]
  exact List.getElem_mem _

theorem frameChannel_of_row {s : Nat} (hs : s < act.length) (q : Nat) :
    frameChannel act (q * act.length + s) = act.getD ((q + s) % act.length) 0 := by
  have hrow : (q * act.length + s) / act.length = q := by
    rw [Nat.mul_comm, Nat.mul_add_div (Nat.zero_lt_of_lt hs), Nat.div_eq_of_lt hs, Nat.add_zero]
  rw [frameChannel, hrow, Nat.add_assoc, Nat.mul_add_mod_self_right, Nat.add_comm s q]

theorem frameChannel_of_stride (hpos : 0 < act.length) (f n : Nat) :
    frameChannel act (f + act.length * n) = act.getD ((f + f / act.length + n) % act.length) 0 := by
  rw [frameChannel, Nat.add_mul_div_left _ _ hpos, Nat.add_right_comm, Nat.add_mul_mod_self_left, Nat.add_assoc]

theorem frame_eq_of_channel (hnodup : act.Nodup) (hpos : 0 < act.length) {f g : Nat}
    (hch : frameChannel act f = frameChannel act g) (hrow : f / act.length = g / act.length) : f = g := by
  rw [frameChannel, frameChannel, List.getD_eq_getElem _ _ (Nat.mod_lt _ hpos),
    List.getD_eq_getElem _ _ (Nat.mod_lt _ hpos), hnodup.getElem_inj_iff, hrow] at hch
  have hslot : f % act.length = g % act.length := Nat.ModEq.add_right_cancel' _ hch
  rw [← Nat.div_add_mod f act.length, ← Nat.div_add_mod g act.length, hrow, hslot]

end

/-! ### `hbm_map` (R237) -/

section

variable {h : Hbm} {base : Nat} {act : List Nat} (hmem : (base, act) ∈ hbmRanges h)

include hmem

theorem hbmMap_of_mem {rel : Nat} (hrel : rel < act.length * chanBytes) :
    hbmMap h (base + rel) =
      (frameChannel act (rel / 4096), rel / 64 % 2, rel / 4096 / act.length * 4096 + rel % 4096,
        10 * (frameChannel act (rel / 4096) / 64)
          + (frameChannel act (rel / 4096) + rel / 4096 / act.length) % 10) := by
  simp only [hbmMap, hbmRange_of_mem hmem hrel, frameChannel]

theorem hbmMap_row_covers {q ch : Nat} (hq : q < 366210) (hch : ch ∈ act) :
    ∃ s < act.length, (hbmMap h (base + 4096 * (q * act.length + s))).1 = ch := by
  obtain ⟨s, hs, hslot⟩ := exists_slot hch q
  have hrel : 4096 * (q * act.length + s) < act.length * chanBytes := by
    have hframe : q * act.length + s < 366210 * act.length :=
      calc q * act.length + s < q * act.length + act.length := Nat.add_lt_add_left hs _
        _ = (q + 1) * act.length := (Nat.add_one_mul _ _).symm
        _ ≤ 366210 * act.length := Nat.mul_le_mul_right _ hq
    rw [chanBytes]
    omega
  refine ⟨s, hs, ?_⟩
  rw [hbmMap_of_mem hmem hrel, Nat.mul_div_cancel_left _ (by decide), frameChannel_of_row hs, hslot]

theorem hbmMap_stride_covers {rel ch : Nat} (hrel : rel + 4096 * act.length * act.length ≤ act.length * chanBytes)
    (hch : ch ∈ act) : ∃ n < act.length, (hbmMap h (base + rel + 4096 * act.length * n)).1 = ch := by
  have hpos : 0 < act.length := List.length_pos_of_mem hch
  obtain ⟨n, hn, hslot⟩ := exists_slot hch (rel / 4096 + rel / 4096 / act.length)
  have hlast : 4096 * act.length * n < 4096 * act.length * act.length :=
    Nat.mul_lt_mul_of_pos_left hn (Nat.mul_pos (by decide) hpos)
  refine ⟨n, hn, ?_⟩
  rw [Nat.add_assoc, hbmMap_of_mem hmem (by omega), Nat.mul_assoc, Nat.add_mul_div_left _ _ (by decide),
    frameChannel_of_stride hpos, hslot]

end

theorem hbmMap_injective {h : Hbm} (hnodup : h.active.Nodup) {a b : Nat} (ha : a < hbmSpan h) (hb : b < hbmSpan h)
    (hch : (hbmMap h a).1 = (hbmMap h b).1) (hoff : (hbmMap h a).2.2.1 = (hbmMap h b).2.2.1) : a = b := by
  obtain ⟨base, act, rel, hmem, hrel, rfl⟩ := exists_range_of_lt_span ha
  obtain ⟨base', act', rel', hmem', hrel', rfl⟩ := exists_range_of_lt_span hb
  rw [hbmMap_of_mem hmem hrel, hbmMap_of_mem hmem' hrel'] at hch hoff
  have hpos : 0 < act.length := Nat.pos_of_mul_pos_right (Nat.zero_lt_of_lt hrel)
  have hpos' : 0 < act'.length := Nat.pos_of_mul_pos_right (Nat.zero_lt_of_lt hrel')
  have hrange : (base, act) = (base', act') :=
    calc (base, act) = rangeOfChannel h (frameChannel act (rel / 4096)) :=
          eq_rangeOfChannel hmem (frameChannel_mem hpos _)
      _ = rangeOfChannel h (frameChannel act' (rel' / 4096)) := congrArg _ hch
      _ = (base', act') := (eq_rangeOfChannel hmem' (frameChannel_mem hpos' _)).symm
  obtain ⟨rfl, rfl⟩ := Prod.mk.inj hrange
  have hoffset : rel / 4096 / act.length * 4096 + rel % 4096 = rel' / 4096 / act.length * 4096 + rel' % 4096 := hoff
  have hrow : rel / 4096 / act.length = rel' / 4096 / act.length := by omega
  have hframe : rel / 4096 = rel' / 4096 := frame_eq_of_channel (nodup_of_mem_hbmRanges hmem hnodup) hpos hch hrow
  omega

theorem hbmMap_home_of_frame (h : Hbm) {a b : Nat} (hframe : a / 4096 = b / 4096) :
    (hbmMap h a).2.2.2 = (hbmMap h b).2.2.2 := by
  obtain ⟨hrel, hact⟩ := hbmRange_of_frame (h := h) hframe
  simp only [hbmMap, hrel, hact]

/-- Settles O58, from the range of an address and the channel of a frame. -/
theorem hbmMapOneToOne : Obligations.HbmMapOneToOne := by
  refine fun h hnodup => ⟨?ranges, ?injective, fun a => rfl, fun a b => hbmMap_home_of_frame h⟩
  case ranges =>
    refine fun base act hmem => ⟨?map, fun q ch => hbmMap_row_covers hmem, fun rel ch => hbmMap_stride_covers hmem⟩
    rintro rel f q ch hrel rfl rfl rfl
    rw [hbmMap_of_mem hmem hrel, Nat.mod_mod_of_dvd _ (by decide : 2 ∣ 64)]
    rfl
  case injective => exact fun a b => hbmMap_injective hnodup

end Sys2Proof.Machine
end

section
/-!
PROOF. Snoops of host lines, host accesses without an answer and accesses of the CXL.mem window (R256, R257, R427, R431,
R515; log entry 34: with the link down no snoop arrives): one rule per way in which the access goes.
-/

namespace Sys2Proof.Machine

/-! ### Snoops of host lines (R256, R431) -/

section

variable {a line : Nat} (hline : line = lineOf a) {d : Dev}

include hline

/-- A snoop that reads leaves the line with the host: its latest value, with its poison. -/
theorem hostSnoop_reads (hlink : d.hostp.link = true) {e : Dev} (he : e = makeRoom d (deckLine d true line)) :
    hostSnoop a none d =
      { e with hostp := { e.hostp with
          memReply := BitVec.ofNat 512 (readMemLe e true line 64)
          memPoison := mapGet false e.hostPoison line } } := by
  subst hline he
  simp only [hostSnoop, hlink, Bool.not_true, Bool.false_eq_true, if_false]
  rfl

theorem hostSnoop_stores (hlink : d.hostp.link = true) {data : BitVec 512} {mask : BitVec 64} {e : Dev}
    (he : e = hostStore line data mask (makeRoom d (deckLine d true line))) :
    hostSnoop a (some (data, mask)) d =
      { e with hostp := { e.hostp with
          rings := e.hostp.rings.map (fun x =>
            (x.1, if x.2.live && x.2.db == line then { x.2 with snooped := true } else x.2)) } } := by
  subst hline he
  simp only [hostSnoop, hlink, Bool.not_true, Bool.false_eq_true, if_false]
  rfl

theorem hostSnoop_stores_dark (hlink : d.hostp.link = false) (data : BitVec 512) (mask : BitVec 64) :
    hostSnoop a (some (data, mask)) d = hostStoreDark line data mask d := by
  subst hline
  simp only [hostSnoop, hlink, Bool.not_false, if_true]

end

theorem hostSnoop_reads_dark {d : Dev} (hlink : d.hostp.link = false) (a : Nat) : hostSnoop a none d = d := by
  simp only [hostSnoop, hlink, Bool.not_false, if_true]

/-! ### Host accesses without an answer (R257) -/

theorem hostAccessLost_write_dirty {line : Nat} {v : DeckLine} {d : Dev} (hheld : deckLine d true line = some v)
    (hdirty : v.dirty = true) (cause : Nat) :
    hostAccessLost line cause true d = raiseHostMem line cause (showUnder v (deckDrop true line d)) := by
  simp only [hostAccessLost, hheld, hdirty, if_true]

theorem hostAccessLost_write_clean {line : Nat} {d : Dev} (hclean : ∀ v ∈ deckLine d true line, v.dirty = false)
    (cause : Nat) : hostAccessLost line cause true d = raiseHostMem line cause d := by
  cases hheld : deckLine d true line with
  | none => simp only [hostAccessLost, hheld, if_true]
  | some v => simp only [hostAccessLost, hheld, hclean v hheld, Bool.false_eq_true, if_true, if_false]

/-! ### The CXL.mem window (R427) -/

theorem linesOf_lineOf (a : Nat) : linesOf (lineOf a) 64 = [lineOf a] := by
  have hone : (lineOf a + 64 - 1) / 64 - lineOf a / 64 + 1 = 1 := by
    unfold lineOf
    omega
  have hself : lineOf (lineOf a) = lineOf a := by
    unfold lineOf
    omega
  rw [linesOf, hone, if_neg (by decide), hself]
  rfl

section

variable {a line : Nat} {d : Dev} (hline : line = lineOf a) (hwindow : inWindow d line = true)
  (hfree : lineHeld d line = false)

include hline hwindow hfree

theorem windowRead_replies {e : Dev} (he : e = deckTake false line false (plainAccess [line] d)) :
    windowRead a d =
      { e with hostp := { e.hostp with
          memReply := BitVec.ofNat 512 (readMemLe e false line 64), memPoison := linePoisoned e false line } } := by
  subst hline he
  have hread : deckRead false (lineOf a) 64 d = deckTake false (lineOf a) false (plainAccess [lineOf a] d) := by
    simp [deckRead, linesOf_lineOf, deckTakeAll]
  simp only [windowRead, hwindow, hfree, hread, Bool.not_true, Bool.or_false, Bool.false_eq_true, if_false]

theorem windowWrite_stores {data : BitVec 512} {mask : BitVec 64} {e : Dev}
    (he : e = deckStore false line data mask (plainAccess [line] d)) :
    windowWrite a data mask d =
      if e.kz.en && e.kz.hostMem then
        kzRecord 7 0 line 0 (sm3Bytes (leBytes 8 mask.toNat ++ maskedBytes mask.toNat (leBytes 64 data.toNat))) e
      else e := by
  subst hline he
  simp only [windowWrite, hwindow, hfree, Bool.not_true, Bool.or_false, Bool.false_eq_true, if_false]

end

/-- Settles O38, from the rule of each access. -/
theorem hostAccessesAct : Obligations.HostAccessesAct := by
  refine fun s a line hline => ⟨fun ha => ?host, ?window⟩
  case host =>
    have hknown : decide (a < 2 ^ 48) = true := decide_eq_true ha
    refine ⟨?snoop, ?dark, ?lost⟩
    case snoop =>
      rintro hlink d rfl
      exact ⟨onDev_next hknown (hostSnoop_reads hline hlink rfl),
        fun data mask e he => onDev_next hknown (hostSnoop_stores hline hlink he)⟩
    case dark =>
      exact fun hlink => ⟨onDev_next hknown (hostSnoop_reads_dark hlink a),
        fun data mask => onDev_next hknown (hostSnoop_stores_dark hline hlink data mask)⟩
    case lost =>
      subst hline
      exact fun cause => ⟨onDev_next hknown rfl,
        fun v hheld hdirty => onDev_next hknown (hostAccessLost_write_dirty hheld hdirty _),
        fun hclean => onDev_next hknown (hostAccessLost_write_clean hclean _)⟩
  case window =>
    rintro hwindow hfree p d rfl hd
    exact ⟨onDev_next rfl (windowRead_replies hline hwindow hfree hd),
      fun data mask e he => onDev_next rfl (windowWrite_stores hline hwindow hfree he)⟩

end Sys2Proof.Machine
end

section
/-!
PROOF. Atomics and glue-ups of an S queue (R268, R269, R274 to R277, R280 to R283, R285; log entries 16 and 18): one rule
for the work of each command where no check refuses it, and one for each event that the coordinator's state allows.
-/

namespace Sys2Proof.Machine

/-- The meaning of a command that issues and then lets the open glue-up of its core go on. -/
theorem onDev_issues_then {cmd : QCmd} {accept : List Nat} {engine glueOk : Bool} {more : List (Nat × Bool)}
    {ops : List Nat} {body : Job → Except Stop Job} {s : State} {r : Ready} {j : Job} (goOn : Dev → Dev → Dev)
    (hstart : started cmd accept engine glueOk more ops s.dev = some r) (hbody : body r.job = .ok j)
    (hnow : issuesNow r j = true) :
    onDev (coreKnown cmd.core) (fun d => goOn d (runCmd cmd accept engine glueOk more ops body d)) s =
      .next { s with dev := goOn s.dev (issued r j) } :=
  onDev_next (decide_eq_true (started_core hstart)) (congrArg (goOn s.dev) (runCmd_issues hstart hbody hnow))

/-! ### ATOMIC (R268, R269, R274, R276) -/

theorem exec_atomic_issues {q : QCmd} {f : AtomicF} {s : State} {r : Ready} {j : Job}
    (hstart : started q [3] true true [] [] s.dev = some r) (hbody : atomicBody f r.job = .ok j)
    (hnow : issuesNow r j = true) :
    exec (.atomic q f) s = .next { s with dev := sendActs q.core (actCount s.dev q.core) (issued r j) } :=
  onDev_issues_then (fun d => sendActs q.core (actCount d q.core)) hstart hbody hnow

section

variable {f : AtomicF} {ts : List AtomTarget} {j j2 : Job} (hplan : atomPlan f j = .ok (ts, j2))

include hplan

theorem atomicBody_alone (hnone : openGlue j2.d j2.core = none) : atomicBody f j = atomRun f ts j2 := by
  simp only [atomicBody, hplan, hnone]

/-- Within a glue-up the operations become actions; an SINIT whose record is held would have to wait (R279). -/
theorem atomicBody_joins {g : Glue} {as : List GlueAct} {j3 : Job} (hopen : openGlue j2.d j2.core = some g)
    (hacts : glueActs f j2.cmd.tag ts j2 = .ok (as, j3))
    (hrecord : f.op = .sinit → sinitOpnd j2.unit j2.ctx f.rslot j2.d ≠ .error .wait)
    (hfits : glueFits (g.acts ++ as) = true) :
    atomicBody f j = .ok { j3 with d := putGlue { g with acts := g.acts ++ as } j3.d, writes := [] } := by
  -- This excludes the waiting case of the body's match.
  have hfree : (if f.op = .sinit then sinitOpnd j2.unit j2.ctx f.rslot j2.d else .ok (0, j2.d)) ≠ .error .wait := by
    split
    next hsinit => exact hrecord hsinit
    next => exact nofun
  simp only [atomicBody, hplan, hopen, hacts, hfits, Bool.not_true, Bool.false_eq_true, if_false]

end

/-! ### GLUE_BEGIN and GLUE_COMMIT (R275 to R277, R280, R285) -/

/-- What a GLUE_BEGIN issues: itself, or, where it reruns, itself without the waits that it has had (R285). -/
theorem exec_glueBegin {q q' : QCmd} {s : State} (status : Stepped)
    (hq : q' = if (queueAt s.dev q.core 3).glueLast = 5 then { q with waitA := none, waitB := none } else q) :
    exec (.glueBegin q status) s =
      onDev (coreKnown q'.core) (runCmd q' [3] false false [] [] (glueBeginBody status)) s := by
  subst hq
  simp only [exec, execGlueBegin, beq_iff_eq]

theorem glueBeginBody_opens {status : Stepped} {j : Job} {a : Nat} (hstatus : steppedVal j.loops status = (a : Int))
    (halign : a % 8 = 0) (hbench : a + 8 ≤ benchSize) (hfirst : ∀ g ∈ j.d.glues, g.id ≠ 4 * j.core + 3) :
    glueBeginBody status j = .ok { j with
      glueMark := true
      d := modQueue j.core 3 (fun x => { x with glueLast := 0 }) { j.d with glues := j.d.glues ++ [
        { id := 4 * j.core + 3, core := j.core, ctx := j.ctx, status := a,
          last := (queueAt j.d j.core 3).glueLast, loops := (queueAt j.d j.core 3).loops,
          pc := (queueAt j.d j.core 3).pc }] } } := by
  have hplaced : ¬ ((a : Int) < 0 ∨ (a : Int) % 8 ≠ 0 ∨ (benchSize : Int) < a + 8) := by omega
  have hnone : ¬ j.d.glues.any (fun g => g.id == 4 * j.core + 3) = true := by simpa using hfirst
  simp only [glueBeginBody, hstatus, if_neg hplaced, if_neg hnone, Int.toNat_natCast]

/-- GLUE_COMMIT ends the body of the open glue-up, which then goes on to its commit point (R277, R280). -/
theorem exec_glueCommit_issues {q : QCmd} {fail : Option Nat} {s : State} {r : Ready} {g : Glue} {j : Job}
    {outs : List (Nat × Nat)} (hstart : started q [3] false true [] fail.toList s.dev = some r)
    (hopen : openGlue r.job.d r.job.core = some g)
    (houts : outs = (g.status, 8) :: g.acts.filterMap (fun a => a.ret.map (fun x => (x, a.width))))
    (hj : j = { r.job with
      d := putGlue { g with commitIssued := true, fail := flightKey r.job.d r.job fail } r.job.d
      writes := outs
      dsts := outs.map (fun o => Region.bench o.1 o.2) })
    (hnow : issuesNow r j = true) :
    exec (.glueCommit q fail) s = .next { s with dev := settleGlue (4 * q.core + 3) (issued r j) } := by
  refine onDev_issues_then (fun _ => settleGlue (4 * q.core + 3)) hstart ?body hnow
  case body =>
    subst houts hj
    simp only [hopen]

/-- Settles O15, from the rule of each command's work. -/
theorem glueCommandsIssue : Obligations.GlueCommandsIssue := by
  refine fun q s r => ⟨fun hstart f ts j2 hplan => ⟨?alone, ?joins⟩, ?begins, ?commits⟩
  case alone =>
    exact fun hnone j3 hrun hnow => exec_atomic_issues hstart ((atomicBody_alone hplan hnone).trans hrun) hnow
  case joins =>
    rintro g as j3 hopen hacts hrecord hfits j rfl hnow
    exact exec_atomic_issues hstart (atomicBody_joins hplan hopen hacts hrecord hfits) hnow
  case begins =>
    rintro q' hq hstart status a hstatus halign hbench hfirst j rfl hnow
    exact (exec_glueBegin status hq).trans
      (onDev_issues hstart (glueBeginBody_opens hstatus halign hbench hfirst) hnow)
  case commits =>
    exact fun fail hstart g hopen outs j houts hj hnow => exec_glueCommit_issues hstart hopen houts hj hnow

/-! ### Events of the coordinator (R280 to R283) -/

theorem glueOpener_sQueue {id : Nat} (hlow : id < 640) (hkind : id % 4 = 3) : glueOpener id = 3 := by
  rw [glueOpener, if_neg (Nat.not_le.2 hlow), hkind]

@[simp] theorem dropAttempt_acts (g : Glue) : (dropAttempt g).acts = g.acts := rfl

section

variable {id : Nat} {g : Glue} {d : Dev} (hg : glueAt d id = some g)

include hg

theorem backoffEnd_replays (hphase : g.phase = .backoff) (hcommit : g.commitIssued = true)
    (hretry : g.retryAt ≤ nowNs d) {g' : Glue}
    (hg' : g' = { dropAttempt g with phase := .marking, attempts := g.attempts + 1 }) :
    backoffEnd id d = settleGlue id (stageAll d 0 g.acts g' (putGlue g' d)) := by
  subst hg'
  have hreplays : (g.phase == .backoff && g.commitIssued && decide (g.retryAt ≤ nowNs d)) = true := by
    simp [hphase, hcommit, hretry]
  simp only [backoffEnd, hg, hreplays, if_true, dropAttempt_acts]

theorem clampedRun_stages (hphase : g.phase = .waitClamp) (hcommit : g.commitIssued = true)
    (hturn : clampTurn d g = true) {e : Dev} {g' : Glue}
    (hlock : lockLines id (glueLines g) (putGlue { g with clamped := true, attempts := 5 } d) = (e, true))
    (hg' : glueAt e id = some g') :
    clampedRun id d =
      settleGlue id (stageAll e 0 g'.acts { dropAttempt g' with marks := g'.marks, phase := .marking }
        (putGlue { dropAttempt g' with marks := g'.marks, phase := .marking } e)) := by
  have hruns : (g.phase == .waitClamp && g.commitIssued && clampTurn d g) = true := by simp [hphase, hcommit, hturn]
  have hlines : glueLines { g with clamped := true, attempts := 5 } = glueLines g := rfl
  simp only [clampedRun, hg, hruns, if_true, hlines, hlock, hg', dropAttempt_acts]

/-- A deck that can apply makes its lines current and acknowledges; no record of this glue-up has overflowed. -/
theorem glueApplyAt_applies {cluster : Nat} (hphase : g.phase = .committed) (hdeck : cluster ∈ glueDecks d g)
    (hnew : cluster ∉ g.acked) (hbad : g.bad = []) (oldLost : Bool) :
    glueApplyAt id cluster true oldLost d =
      putGlue { g with acked := g.acked ++ [cluster] } (putLines [cluster] g.staged d) := by
  simp [glueApplyAt, hg, hphase, hdeck, hnew, hbad]

theorem glueReleaseAt_finishes (hphase : g.phase = .committed) (hacked : ∀ k ∈ glueDecks d g, k ∈ g.acked) :
    glueReleaseAt id d = finishGlue g d := by
  have hall : (glueDecks d g).all (fun k => g.acked.contains k) = true := by simpa using hacked
  simp only [glueReleaseAt, hg, hphase, hall, beq_self_eq_true, Bool.and_self, if_true]

theorem glueTimeoutAt_errs (hcounted : 4 ≤ g.counted) (hcommit : g.commitIssued = true)
    (htime : g.clampAt + 50000 ≤ nowNs d) : glueTimeoutAt id d = errorAbort g (glueTimeoutRec g d) := by
  have hlate : glueLate d g = true := by simp [glueLate, hcounted, hcommit, htime]
  simp only [glueTimeoutAt, hg, hlate, if_true]

end

/-- Settles O16, from the rule of each event of an S queue's glue-up. -/
theorem glueEventsAct : Obligations.GlueEventsAct := by
  intro id g s hg hlow hkind
  have hopener : glueOpener id = 3 := glueOpener_sQueue hlow hkind
  refine ⟨?backoff, ?clamped, ?apply, ?release, ?timeout⟩
  case backoff =>
    intro hphase hcommit hretry g' hg'
    refine onDev_next rfl ?_
    rw [glueBackoff, hopener]
    exact backoffEnd_replays hg hphase hcommit hretry hg'
  case clamped =>
    intro hphase hcommit hturn d g' hlock hg'
    refine onDev_next rfl ?_
    rw [glueClamped, hopener]
    exact clampedRun_stages hg hphase hcommit hturn hlock hg'
  case apply =>
    exact fun cluster hcluster hphase hdeck hnew hbad =>
      onDev_next (decide_eq_true hcluster) (glueApplyAt_applies hg hphase hdeck hnew hbad false)
  case release =>
    exact fun hphase hacked => onDev_next rfl (glueReleaseAt_finishes hg hphase hacked)
  case timeout =>
    intro hcounted hcommit htime
    refine onDev_next rfl ?_
    rw [glueTimeout, hopener]
    exact glueTimeoutAt_errs hg hcounted hcommit htime

end Sys2Proof.Machine
end

section
/-!
PROOF. The step (00_scope.md, 14 R338, R339): the command in front runs on the rest of the queue, no meaning touches the
queue, and with no command waiting a nanosecond of keystone time passes.
-/

namespace Sys2Proof.Machine

/-- Settles O1: the step's own equation at a queue with a front. -/
theorem stepRunsFront : Obligations.StepRunsFront := fun _ _ _ => rfl

/-- Settles O52: each value is that of the state right after reset. -/
theorem resetState : Obligations.ResetState := ⟨rfl, by decide, rfl, rfl, rfl, rfl, rfl, rfl, rfl, rfl⟩

/-! ### The queue of waiting commands -/

theorem onDev_pending {known : Bool} {f : Dev → Dev} {s t : State} (h : onDev known f s = .next t) :
    t.pending = s.pending := by
  unfold onDev at h
  split at h <;> cases h
  rfl

theorem onFuse_pending {known : Bool} {f : Fuse → Dev → Dev} {s t : State} (h : onFuse known f s = .next t) :
    t.pending = s.pending := by
  unfold onFuse at h
  split at h <;> cases h
  rfl

/-- Settles O3: each of the three forms of a meaning keeps the queue. -/
theorem queueKept : Obligations.QueueKept := by
  intro c s t h
  have form := meaningForm_exec c s
  rw [h] at form
  generalize ho : Host.Outcome.next t = o at form
  cases form with
  | onDev => exact onDev_pending ho.symm
  | onFuse => exact onFuse_pending ho.symm
  | mbox =>
    cases ho
    rfl

/-! ### A nanosecond of keystone time -/

theorem step_of_idle {s : State} (h : s.pending = []) : step s = .next { s with dev := tick s.dev } := by
  simp only [step, h]

theorem tick_unpowered {d : Dev} (h : d.pwr.phase = .unpowered) : tick d = d := if_pos h

theorem tick_powered {d : Dev} (h : d.pwr.phase ≠ .unpowered) {k : Keystone} (hk : k = rateSlew (refSlew d.kt)) :
    tick d =
      { d with
        kt := { k with
          now := ((k.now : Int) + 65536 + slewShare k).toNat % 2 ^ 80, slewAt := min 1000 (k.slewAt + 1) } } := by
  subst hk
  exact if_neg h

/-- No correction toward a reference is left. -/
theorem refSlew_done {k : Keystone} (h : k.refLeft = 0) : refSlew k = k := by simp [refSlew, h]

theorem rateSlew_none {k : Keystone} (h : k.rate = 0 ∨ (k.state ≠ .holdover ∧ k.state ≠ .free)) : rateSlew k = k := by
  obtain h | ⟨hhold, hfree⟩ := h
  · simp [rateSlew, h]
  · simp [rateSlew, hhold, hfree]

/-- Without a slew under way the count rises by one nanosecond. -/
theorem tick_even {d : Dev} (hpowered : d.pwr.phase ≠ .unpowered) (hslew : d.kt.slewAt = 1000) (href : d.kt.refLeft = 0)
    (hrate : d.kt.rate = 0 ∨ (d.kt.state ≠ .holdover ∧ d.kt.state ≠ .free)) :
    tick d = { d with kt := { d.kt with now := (d.kt.now + 65536) % 2 ^ 80 } } := by
  have hkeep : d.kt = rateSlew (refSlew d.kt) := by rw [refSlew_done href, rateSlew_none hrate]
  have hshare : slewShare d.kt = 0 := by simp [slewShare, hslew]
  have hnow : ((d.kt.now : Int) + 65536 + slewShare d.kt).toNat = d.kt.now + 65536 := by omega
  have hat : min 1000 (d.kt.slewAt + 1) = d.kt.slewAt := by omega
  rw [tick_powered hpowered hkeep, hnow, hat]

/-- A tick changes keystone time alone. -/
theorem tick_kt_alone (d : Dev) : { tick d with kt := d.kt } = d := by
  unfold tick
  split <;> rfl

/-- Settles O53, from what a tick leaves. -/
theorem idleTicks : Obligations.IdleTicks := by
  intro s hidle
  rw [step_of_idle hidle]
  refine ⟨?unpowered, ?powered, ?even, ?alone⟩
  case unpowered => exact fun h => next_dev_congr s (tick_unpowered h)
  case powered => exact fun k hpowered hk => next_dev_congr s (tick_powered hpowered hk)
  case even => exact fun hpowered hslew href hrate => next_dev_congr s (tick_even hpowered hslew href hrate)
  case alone =>
    rintro _ ⟨⟩
    exact congrArg (fun d => { s with dev := d }) (tick_kt_alone s.dev)

end Sys2Proof.Machine
end

section
/-!
PROOF. Keystone time (14 R339 to R353, 22 R548 to R550): marks, the choice of parent, holdover, and the external
reference, one rule per case of each event.
-/

namespace Sys2Proof.Machine

/-! ### Marks (R341 to R345) -/

theorem linkUp_iff (p : Port) : linkUp p = true ↔ p.state = .localSt ∨ p.state = .routed := by simp [linkUp]

theorem eligible_iff (d : Dev) (port : Nat) :
    eligible d port = true ↔
      ((portAt d port).state = .localSt ∨ (portAt d port).state = .routed)
        ∧ 64 ≤ (portAt d port).marks
        ∧ nowNs d ≤ (portAt d port).lastMark + 3000
        ∧ nowNs d ≤ (portAt d port).rootSeqAt + 10000
        ∧ (portAt d port).offer.hops < 31 := by
  simp [eligible, linkUp_iff, and_assoc]

section

variable (b : List Byte) (rx now : Nat) (p : Port)

theorem markPort_lastMark : (markPort b rx now p).lastMark = now := by
  unfold markPort
  simp only []
  split <;> rfl

theorem markPort_rootSeqAt :
    (markPort b rx now p).rootSeqAt =
      if p.seen = false ∨ (parseOffer b).rootSeq ≠ p.offer.rootSeq then now else p.rootSeqAt := by
  unfold markPort
  simp only []
  split <;> simp

theorem markPort_offer : (markPort b rx now p).offer = parseOffer b := by
  unfold markPort
  simp only []
  split <;> rfl

theorem markPort_marks :
    (markPort b rx now p).marks =
      if (p.txStamps.find? (fun x => x.1 == leAt b 0x1A 2)).isSome then p.marks + 1 else p.marks := by
  unfold markPort
  simp only []
  split
  next hnone => simp [hnone]
  next t hsome => simp [hsome]

end

section

variable (port cause : Nat) (d : Dev)

@[simp] theorem portAt_linkRecord (p : Nat) (old new : LinkState) :
    portAt (linkRecord port old new cause d) p = portAt d p := by
  unfold portAt linkRecord
  rw [(raiseFields_kept _ _ _ _ d).ports]

theorem enterLocal_marks (half : Bool) : (portAt (enterLocal port half d) port).marks = 0 := by
  unfold enterLocal
  simp only []
  split
  · rw [portAt_linkRecord, portAt_modPort_self]
    simp
  · rw [portAt_modPort_self]
    simp

theorem leaveLink_marks : (portAt (leaveLink port .retrain cause d) port).marks = 0 := by
  unfold leaveLink
  simp only []
  split
  · rw [portAt_modPort_self]
    simp
  · rw [portAt_linkRecord, portAt_modPort_self]
    simp

end

/-- Settles O60, from the conditions of `eligible` and what coming up, retraining and a mark leave at the port. -/
theorem parentEligible : Obligations.ParentEligible :=
  ⟨eligible_iff, fun d port cause half => ⟨enterLocal_marks port d half, leaveLink_marks port cause d⟩,
    fun p b rx now => ⟨markPort_lastMark b rx now p, markPort_rootSeqAt b rx now p, markPort_offer b rx now p,
      markPort_marks b rx now p⟩⟩

/-- A command that also reads the fuses, on a unit of the module. -/
theorem onFuse_next {known : Bool} {f : Fuse → Dev → Dev} {s : State} {d : Dev} (hknown : known = true)
    (h : f s.fuse s.dev = d) : onFuse known f s = .next { s with dev := d } := by
  subst h
  exact if_pos hknown

/-- The module whose mark leaves: a root counts its marks. -/
def countMark (d : Dev) : Dev :=
  if isRoot d.kt then { d with kt := { d.kt with rootSeq := (d.kt.rootSeq + 1) % 2 ^ 32 } } else d

theorem sendMark_due {serial : BitVec 64} {port n : Nat} {d e : Dev} (hup : linkUp (portAt d port) = true)
    (hdue : ∀ x ∈ (portAt d port).txStamps.head?, x.2 / 65536000 ≠ d.kt.now / 65536000)
    (he : e = countMark d) (hn : n = ((portAt d port).txSeq + 1) % 65536) :
    sendMark serial port d =
      modPort port (fun p => { p with
        txSeq := n
        txStamps := ((n, stamp e) :: p.txStamps).take 16
        out := packCtrl { vc := 5, typ := 1, loc := true, sunasg := !e.tab.modidValid, smod := e.tab.modid,
                          body := markBody (ownOffer serial e) (portAt d port) n (stamp e) } }) e := by
  subst he hn
  refine if_neg ?_
  simp only [hup, Bool.not_true, Bool.false_or, Bool.not_eq_true', Bool.not_eq_false]
  split
  next => rfl
  next x xs hstamps => simpa [hstamps] using hdue

theorem markArrive_whole {serial : BitVec 64} {port : Nat} {bs : List Byte} {d e e' : Dev} {measured : Bool}
    (hup : linkUp (portAt d port) = true) (hlen : bs.length = 64) (hcrc : ctrlCrcOk bs = true)
    (he' : e' = modPort port (markPort (parseCtrl bs).body (stamp d) (nowNs d)) d) (he : e = reselect serial e')
    (hmeasured : measured = decide ((portAt e' port).marks ≠ (portAt d port).marks)) :
    markArrive serial port bs d =
      if e.kt.parent = some port && measured
        then lockState port (portAt e port).theta (servo (portAt e port).theta e) else e := by
  subst hmeasured he he'
  simp [markArrive, hup, hlen, hcrc]

/-- Settles O24, from what a mark that leaves or arrives does and the conditions of the other events. -/
theorem timeActs : Obligations.TimeActs := by
  refine ⟨?marks, ?parent⟩
  case marks =>
    intro s port hport hup
    refine ⟨?sent, ?arrived⟩
    case sent =>
      intro hdue d n hd hn
      show execTimeMarkSend port s = _
      exact onFuse_next (decide_eq_true hport) (sendMark_due hup hdue hd hn)
    case arrived =>
      intro bs d d' hlen hcrc hd' hd measured hmeasured
      show execTimeMark port bs s = _
      exact onFuse_next (decide_eq_true hport) (markArrive_whole hup hlen hcrc hd' hd hmeasured)
  case parent =>
    refine fun s => ⟨fun port hport hparent hnot => ?again, fun hhold => ⟨?limit, fun hlong hnone => ?expiry⟩⟩
    case again =>
      show execPortIneligible port s = _
      exact onFuse_next (decide_eq_true hport) (by simp [hparent, hnot])
    case limit => exact onDev_next rfl (if_pos hhold)
    case expiry =>
      show execHoldExpiry s = _
      exact onDev_next rfl (by simp [hhold, hlong, hnone])

/-! ### Apply times (R359, R367, R402, R438) -/

theorem capHolds_iff (p : Power) : capHolds p = true ↔ p.cap < p.watts ∧ atFloor p.clocks = true := by
  simp [capHolds]

/-- Settles O25: each change that is due applies where it is whole, and is reported where it is not. -/
theorem changesApply : Obligations.ChangesApply := by
  intro s
  refine ⟨fun c hc ht => ?timetable, fun c hc ht => ?routing, fun p hp ht hcoord => ?clocks⟩
  case timetable =>
    show (_ → execTtApply s = _) ∧ (_ → execTtApply s = _)
    exact ⟨fun hwhole => onDev_next rfl (by simp [hc, Nat.not_lt.2 ht, hwhole]),
      fun hpart => onDev_next rfl (by simp [hc, Nat.not_lt.2 ht, Nat.not_le.2 hpart])⟩
  case routing =>
    show (_ → execRtApply s = _) ∧ (_ → execRtApply s = _)
    exact ⟨fun hwhole => onDev_next rfl (by simp [hc, Nat.not_lt.2 ht, hwhole]; rfl),
      fun hpart => onDev_next rfl (by simp [hc, Nat.not_lt.2 ht, Nat.not_le.2 hpart])⟩
  case clocks =>
    show execClockPlanApply s = _
    exact onDev_next rfl (by simp [hp, Nat.not_lt.2 ht, hcoord, capHolds_iff])

/-- The clock that one entry of a plan gives its cluster. -/
def planOne (m : SMap Nat) (x : Nat × Nat) : SMap Nat := if x.1 = 63 then m else mapPut 70 x.2 (28 + x.1) m

theorem mapOk_planOne {m : SMap Nat} (hok : mapOk 70 m = true) (x : Nat × Nat) : mapOk 70 (planOne m x) = true := by
  unfold planOne
  split
  · exact hok
  · exact mapOk_mapPut _ _ _ _ hok

theorem mapGet_planOne {m : SMap Nat} (hok : mapOk 70 m = true) (x : Nat × Nat) (k : Nat) :
    mapGet 70 (planOne m x) k = if k = x.2 ∧ x.1 ≠ 63 then 28 + x.1 else mapGet 70 m k := by
  unfold planOne
  by_cases hkeep : x.1 = 63
  · simp [hkeep]
  · simp [hkeep, mapGet_mapPut _ _ _ _ _ hok]

/-- Entries from cluster `a` on, one after the other. -/
theorem mapGet_foldl_planOne (ts : List Nat) (a : Nat) {m : SMap Nat} (hok : mapOk 70 m = true) (k : Nat) :
    mapGet 70 ((ts.zip (List.range' a ts.length)).foldl planOne m) k =
      if a ≤ k ∧ ts.getD (k - a) 63 ≠ 63 then 28 + ts.getD (k - a) 63 else mapGet 70 m k := by
  induction ts generalizing a m with
  | nil => simp
  | cons t ts ih =>
    simp only [List.length_cons, List.range'_succ, List.zip_cons_cons, List.foldl_cons]
    rw [ih (a + 1) (mapOk_planOne hok _), mapGet_planOne hok]
    obtain hbelow | rfl | habove := Nat.lt_trichotomy k a
    · simp [Nat.not_le.2 hbelow, hbelow.ne, show ¬ a + 1 ≤ k by omega]
    · simp
    · have hoff : k - a = (k - (a + 1)) + 1 := by omega
      simp [hoff, habove.ne', habove.le, Nat.succ_le_of_lt habove]

/-- Settles O26: each entry of the plan sets its own cluster's clock and leaves the others. -/
theorem clockPlanSetsNamedClocks : Obligations.ClockPlanSetsNamedClocks := by
  intro targets clocks k hlen hok
  have hplan : planClocks targets clocks = (targets.zip (List.range' 0 targets.length)).foldl planOne clocks := by
    rw [hlen, ← List.range_eq_range']
    rfl
  rw [hplan, mapGet_foldl_planOne targets 0 hok k]
  by_cases hk : k < 20
  · simp [hk]
  · have hbeyond : targets.getD k 63 = 63 := List.getD_eq_default _ _ (by omega)
    simp only [Nat.sub_zero, hbeyond, hk, ne_eq, not_true_eq_false, and_false, if_false]

/-! ### The external reference (R348, R548 to R550) -/

theorem refRead_powered {d : Dev} (h : refRead d = true) : d.pwr.phase ≠ .unpowered := by
  simp only [refRead, Bool.and_eq_true, bne_iff_ne] at h
  exact h.1.1

section

variable {d e : Dev} {n t : Nat} (hread : refRead d = true)

/-- An edge whose frame arrived from 100 ms to 900 ms before it, with that frame taken. -/
def edgeTaken (n : Nat) (d : Dev) : Dev :=
  { d with kt := { d.kt with lastPps := some (nowNs d), code := none, lastSecond := some n } }

include hread

theorem ppsArrives_locks (hcode : d.kt.code = some (n, t)) (hearly : t + 100000000 ≤ nowNs d)
    (hlate : nowNs d ≤ t + 900000000) (hnext : d.kt.refLocked = false ∨ ∀ m ∈ d.kt.lastSecond, m + 1 = n)
    (he : e = lockRef n (edgeTaken n d)) :
    ppsArrives d = { e with kt := { e.kt with lastPps := some (nowNs e) } } := by
  subst he
  obtain hfree | hnext := hnext
  · simp [ppsArrives, hread, hcode, hearly, hlate, hfree, edgeTaken]
  · cases hlast : d.kt.lastSecond with
    | none => simp [ppsArrives, hread, hcode, hearly, hlate, hlast, edgeTaken]
    | some m =>
      have hm : m + 1 = n := hnext m hlast
      simp [ppsArrives, hread, hcode, hearly, hlate, hlast, hm, edgeTaken]

theorem ppsArrives_skips {m : Nat} (hcode : d.kt.code = some (n, t)) (hearly : t + 100000000 ≤ nowNs d)
    (hlate : nowNs d ≤ t + 900000000) (hlocked : d.kt.refLocked = true) (hlast : d.kt.lastSecond = some m)
    (hskip : m + 1 ≠ n) : ppsArrives d = refLose 3 (edgeTaken n d) := by
  simp [ppsArrives, hread, hcode, hearly, hlate, hlocked, hlast, hskip, edgeTaken]

theorem ppsArrives_uncounted (hcode : ∀ c ∈ d.kt.code, nowNs d < c.2 + 100000000 ∨ c.2 + 900000000 < nowNs d)
    (he : e = { d with kt := { d.kt with lastPps := some (nowNs d), code := none } }) :
    ppsArrives d = if d.kt.refLocked then lockRef ((nowNs d + 500000000) / 1000000000) e else e := by
  subst he
  cases hframe : d.kt.code with
  | none => simp [ppsArrives, hread, hframe]
  | some c =>
    have hout : ¬ (c.2 + 100000000 ≤ nowNs d ∧ nowNs d ≤ c.2 + 900000000) := by
      have := hcode c hframe
      omega
    simp [ppsArrives, hread, hframe, hout]

theorem codeArrives_keeps {bs : List Byte} (hlen : bs.length = 11) (hsync : leAt bs 0 1 = 0x5A)
    (hflags : leAt bs 9 1 = 0) (hcheck : leAt bs 10 1 = crc8 ((bs.drop 1).take 9)) :
    codeArrives bs d = { d with kt := { d.kt with code := some (leAt bs 1 8, nowNs d) } } := by
  simp [codeArrives, hread, hlen, hsync, hflags, hcheck]

omit hread in
theorem codeArrives_ignores {bs : List Byte}
    (h : bs.length ≠ 11 ∨ leAt bs 0 1 ≠ 0x5A ∨ leAt bs 9 1 ≠ 0 ∨ leAt bs 10 1 ≠ crc8 ((bs.drop 1).take 9)) :
    codeArrives bs d = d := by
  refine if_neg ?_
  simp only [Bool.and_eq_true, beq_iff_eq]
  tauto

theorem execExtrefLoss_due {s : State} {cause : Nat} (hd : s.dev = d)
    (hdue : cause = 2 ∨ cause = 3 ∨ (cause = 1 ∧ ∀ t ∈ d.kt.lastPps, t + 1500000000 < nowNs d)) :
    execExtrefLoss cause s = .next { s with dev := refLose cause d } := by
  subst hd
  obtain rfl | rfl | ⟨rfl, hlong⟩ := hdue
  · exact onDev_next rfl (by simp [hread])
  · exact onDev_next rfl (by simp [hread])
  · refine onDev_next rfl ?_
    cases hlast : s.dev.kt.lastPps with
    | none => simp [hread]
    | some t => simp [hread, hlong t hlast]

end

theorem refLose_of_locked {d : Dev} (hlocked : d.kt.refLocked = true) (cause : Nat) :
    refLose cause d =
      raiseFields timeExtref unitKeystone none [(cause, 8)]
        { d with
          kt := { d.kt with
            refLocked := false, refLost := true, refLeft := 0
            state := if d.kt.state = .extref then .master else d.kt.state } } := by
  simp [refLose, hlocked]

/-- The first lock sets the count to the edge's second where a step is allowed. -/
theorem lockRef_steps {n : Nat} {d : Dev} (hfree : d.kt.refLocked = false) (hkept : d.kt.refLost = false)
    (hallowed : stepAllowed d = true) : (lockRef n d).kt.now = secondUnits n % 2 ^ 80 := by
  have hsum : (d.kt.now : Int) + ((secondUnits n : Int) - d.kt.now) = secondUnits n := by omega
  simp [lockRef, stepTime, hfree, hkept, hallowed, hsum]

theorem lockRef_now {n : Nat} {d : Dev}
    (h : d.kt.refLocked = true ∨ d.kt.refLost = true ∨ stepAllowed d = false) : (lockRef n d).kt.now = d.kt.now := by
  have hnot : (!d.kt.refLocked && !d.kt.refLost && stepAllowed d) = false := by
    obtain h | h | h := h <;> simp [h]
  simp [lockRef, hnot]

/-- Settles O41, from the rule of each event. -/
theorem referenceActs : Obligations.ReferenceActs := by
  intro s hread
  refine ⟨?locks, ?skips, ?uncounted, ?frame, ?noFrame, ?loss, ?pulse⟩
  case locks =>
    rintro n t d hcode hearly hlate hnext hd
    refine ⟨next_dev_congr s (ppsArrives_locks hread hcode hearly hlate hnext hd), ?_⟩
    subst hd
    exact ⟨rfl, rfl, rfl, fun hfree hkept hallowed => lockRef_steps hfree hkept hallowed, fun h => lockRef_now h⟩
  case skips =>
    exact fun n t m hcode hearly hlate hlocked hlast hskip =>
      next_dev_congr s (ppsArrives_skips hread hcode hearly hlate hlocked hlast hskip)
  case uncounted => exact fun d hcode hd => next_dev_congr s (ppsArrives_uncounted hread hcode hd)
  case frame =>
    exact fun bs hlen hsync hflags hcheck => next_dev_congr s (codeArrives_keeps hread hlen hsync hflags hcheck)
  case noFrame => exact fun bs h => next_dev_congr s (codeArrives_ignores h)
  case loss =>
    exact fun cause hlocked hdue =>
      (execExtrefLoss_due hread rfl hdue).trans (next_dev_congr s (refLose_of_locked hlocked cause))
  case pulse =>
    show execPpsOut s = _
    exact onDev_next rfl (if_neg (refRead_powered hread))

end Sys2Proof.Machine
end

section
/-!
PROOF. The Dovetail channels (12 R289 to R309): for each event of a channel the rule of its clean case, and what the grant
of an engine leaves.
-/

namespace Sys2Proof.Machine

/-! ### Beats (R293, R295, R301) -/

theorem dvServe_none (m : Nat) (d : Dev) : dvServe m none d = (none, dvSettle m 12 d) := by
  unfold dvServe
  cases dvDueNow d m <;> rfl

section

variable {chan kind ctx : Nat} {d e : Dev} {x : DvDesc} {r : DvRun}

/-- What a channel that may take a beat says of its run. -/
theorem dvReady_run (h : dvReady d chan = some (ctx, x, r)) : (chanAt d chan).run = some r ∧ x = parseDv r.desc := by
  unfold dvReady at h
  split at h
  next c y _ hrun =>
    simp only [] at h
    split at h
    · cases h
    · obtain ⟨_, rfl, rfl⟩ := h
      exact ⟨hrun, rfl⟩
  next => cases h

theorem kind_of_runKind (hkind : runKind d chan = some kind) (hready : dvReady d chan = some (ctx, x, r)) :
    x.kind = kind := by
  obtain ⟨hrun, rfl⟩ := dvReady_run hready
  simp only [runKind, hrun] at hkind
  split at hkind
  · cases hkind
  · exact Option.some.inj hkind

/-- A ready channel whose access succeeds. -/
theorem dvBeat_moves (hready : dvReady d chan = some (ctx, x, r)) (hline : dvLine chan ctx x r d = .ok e) :
    dvBeat chan none d = e := by
  simp [dvBeat, hready, hline]

theorem dvWork_moves {n : Nat} (hd : d = dvSettle chan 12 (dvStart chan [kind] e)) (hkind : runKind d chan = some kind)
    {e' : Dev} (hbeat : dvBeat chan none d = e') : dvWork chan kind (n + 1) none e = dvBeats chan n none e' := by
  subst hd hbeat
  simp [dvWork, dvServe_none, hkind, dvBeats]

theorem dvWork_line {n : Nat} (hd : d = dvSettle chan 12 (dvStart chan [kind] e)) (hkind : runKind d chan = some kind)
    (hready : dvReady d chan = some (ctx, x, r)) {e' : Dev}
    (hline : (if dvFetch x r ≠ 0 then fetchLine chan ctx x r d
      else if kind = 0 then copyLine chan ctx x r d else sendLine chan ctx x r d) = .ok e') :
    dvWork chan kind (n + 1) none e = dvBeats chan n none e' :=
  dvWork_moves hd hkind (dvBeat_moves hready (by rw [dvLine, kind_of_runKind hkind hready, hline]))

/-! ### MINT, RESUME and FLUSH (R207, R296, R305) -/

/-- What a MINT leaves beside its entry: the code of a failed one is kept and reported. -/
def mintKept (m ctx : Nat) (r : DvRun) (code handle : Nat) (d : Dev) : Dev :=
  modRun m (fun r => { r with moved := 1, code := code, tries := 0 })
    (if code = 0 then d else mintRecord m ctx r code handle d)

theorem mintWork_reads {bs : List (Byte × Bool)} {code : Nat} {d2 d3 : Dev}
    (hsource : mintSource chan ctx x 5 0 d = .ok (bs, d2)) (hclean : ∀ b ∈ bs, b.2 = false)
    (hmint : mintAt ctx (x.dst % 65536) (bs.map (·.1)) d2 = .ok (code, d3)) :
    mintWork chan ctx x r d = .ok (mintKept chan ctx r code (x.dst % 65536) d3) := by
  have hpoison : bs.any (·.2) = false := List.any_eq_false.2 fun b hb => by simp [hclean b hb]
  simp [mintWork, hsource, hpoison, hmint, mintKept]

theorem dvMint_acts (hd : d = dvSettle chan 12 (dvStart chan [2] e)) (howner : chanOwner d chan = some ctx)
    (hrun : (chanAt d chan).run = some r) (hkind : (parseDv r.desc).kind = 2) (hhalted : r.halted = false)
    (hretry : r.retryAt = none) (hdue : r.due = []) (hmoved : r.moved = 0) {e' : Dev}
    (hwork : mintWork chan ctx (parseDv r.desc) r d = .ok e') : dvMint chan e = e' := by
  subst hd
  simp [dvMint, dvServe_none, howner, hrun, hkind, hhalted, hretry, hdue, hmoved, hwork]

theorem dvControl_acts {i addr : Nat} {tag : BitVec 32} {bs : List Byte} {d2 d3 : Dev}
    (howner : chanOwner e chan = some ctx) (hnext : nextControl e chan ctx = some (i, addr, tag, kind))
    (hread : dvTake (chan / 32) ctx addr 64 e = .ok (bs, d)) (hform : dvDescOk d ctx (parseDv bs) = true)
    (hact : controlAct chan ctx kind d = .ok d2)
    (hend : dvEnd chan ctx { desc := bs, addr := addr, tag := tag } 0 d2 = .ok d3) :
    dvControl chan kind e = modChan chan (fun ch => { ch with posted := ch.posted.eraseIdx i }) d3 := by
  simp [dvControl, howner, hnext, hread, hform, controlWork, hact, hend]

/-! ### Completion, retries and polls (R297, R300, R304) -/

theorem dvFinish_ends (howner : chanOwner e chan = some ctx) (hrun : (chanAt e chan).run = some r)
    (hhalted : r.halted = false) (hretry : r.retryAt = none) (hdone : dvWorkDone (parseDv r.desc) r = true)
    (hend : dvEnd chan ctx r (chanAt e chan).doneBytes e = .ok d) :
    dvFinish chan e = modChan chan (fun ch => { ch with run := none }) d := by
  simp [dvFinish, howner, hrun, hhalted, hretry, hdone, hend]

theorem dvRetryAt_tries {t : Nat} (hrun : (chanAt e chan).run = some r) (hretry : r.retryAt = some t) (hover : t ≤ nowNs e)
    (hd : d = dvSettle chan 12 (modRun chan (fun r => { r with retryAt := none }) e)) :
    dvRetryAt chan none e = if r.due = [] then dvBeat chan none d else d := by
  subst hd
  simp [dvRetryAt, hrun, hretry, Nat.not_lt.2 hover, dvServe_none]

theorem dvPoll_reads (howner : chanOwner e chan = some ctx) (hrun : (chanAt e chan).run = some r)
    (hpace : (parseDv r.desc).pace ≠ 0) (hpaused : r.paused = true) (hhalted : r.halted = false) (hdue : r.due = []) :
    dvPoll chan e = dvSettle chan 8 (modRun chan (fun r => { r with due := [.peer] }) e) := by
  simp [dvPoll, howner, hrun, hpace, hpaused, hhalted, hdue]

end

/-! ### The grant (R301) -/

/-- An idle channel of an engine starts, and the channel makes its due accesses. -/
def engineServe (engine : Nat) (d : Dev) (c : Nat) : Dev :=
  dvSettle (16 * engine + c) 12 (dvStart (16 * engine + c) [0, 1] d)

/-- Without a bus error the channels are served one after the other. -/
theorem dvEngine_none (engine : Nat) (d : Dev) :
    dvEngine engine none d = (none, (List.range 16).foldl (engineServe engine) d) := by
  have key : ∀ (cs : List Nat) (d : Dev),
      cs.foldl (fun y c => dvServe (16 * engine + c) y.1 (dvStart (16 * engine + c) [0, 1] y.2)) (none, d)
        = (none, cs.foldl (engineServe engine) d) := by
    intro cs
    induction cs with
    | nil => exact fun d => rfl
    | cons c cs ih =>
      intro d
      rw [List.foldl_cons, List.foldl_cons, dvServe_none]
      exact ih _
  exact key _ d

theorem dvGrantAt_picks {engine c level : Nat} {d e : Dev} (hd : d = (List.range 16).foldl (engineServe engine) e)
    (hpick : dvPick d engine = some (c, level)) :
    dvGrantAt engine none e =
      dvBeat (16 * engine + c) none { d with dvRr := mapPut 0 (4 * engine + level) ((c + 1) % 16) d.dvRr } := by
  have hengine : dvEngine engine none e = (none, d) := hd ▸ dvEngine_none engine e
  unfold dvGrantAt
  rw [hengine]
  dsimp only
  rw [hpick]

/-! ### DV_POST (R291) -/

theorem dvPostBody_posts {engine channel addr : Nat} {j : Job} (hengine : engine < 40) (hchannel : channel < 16)
    (halign : addr % 64 = 0) (haddr : addr < 2 ^ 48) (howner : (chanAt j.d (16 * engine + channel)).owner = some j.ctx)
    (hroom : (chanAt j.d (16 * engine + channel)).posted.length < 16) :
    dvPostBody engine channel addr j = .ok { j with
      imm := true
      d := modChan (16 * engine + channel)
        (fun ch => { ch with posted := ch.posted ++ [(addr, j.cmd.tag)] }) j.d } := by
  have hform : ¬ (39 < engine ∨ 15 < channel ∨ addr % 64 ≠ 0 ∨ 2 ^ 48 ≤ addr) := by omega
  exact (if_neg hform).trans ((if_neg (not_not.2 howner)).trans (if_neg (Nat.not_le.2 hroom)))

/-- Settles O19, from the rule of each event. -/
theorem dovetailActs : Obligations.DovetailActs := by
  refine ⟨?post, fun s chan hchan => ⟨?beats, ?mint, ?control, ?complete, ?retry, ?poll, ?grant⟩⟩
  case post =>
    rintro q engine channel addr s r hstart hengine hchannel halign haddr howner hroom j rfl hnow
    exact onDev_issues hstart (dvPostBody_posts hengine hchannel halign haddr howner hroom) hnow
  case beats =>
    rintro n _ ctx x r d d2 (rfl | rfl) hd hkind hready hline
    · exact onDev_next (decide_eq_true hchan) (dvWork_line hd hkind hready hline)
    · exact onDev_next (decide_eq_true hchan) (dvWork_line hd hkind hready hline)
  case mint =>
    rintro ctx r x d bs code d2 d3 hd howner hrun rfl hkind hhalted hretry hdue hmoved hsource hclean hmint
    exact onDev_next (decide_eq_true hchan)
      (dvMint_acts hd howner hrun hkind hhalted hretry hdue hmoved (mintWork_reads hsource hclean hmint))
  case control =>
    rintro _ ctx i addr tag bs d d2 d3 (rfl | rfl) howner hnext hread hform hact hend
    · exact onDev_next (decide_eq_true hchan) (dvControl_acts howner hnext hread hform hact hend)
    · exact onDev_next (decide_eq_true hchan) (dvControl_acts howner hnext hread hform hact hend)
  case complete =>
    exact fun ctx r d howner hrun hhalted hretry hdone hend =>
      onDev_next (decide_eq_true hchan) (dvFinish_ends howner hrun hhalted hretry hdone hend)
  case retry =>
    exact fun r t d hrun hretry hover hd =>
      onDev_next (decide_eq_true hchan) (dvRetryAt_tries hrun hretry hover hd)
  case poll =>
    exact fun ctx r howner hrun hpace hpaused hhalted hdue =>
      onDev_next (decide_eq_true hchan) (dvPoll_reads howner hrun hpace hpaused hhalted hdue)
  case grant =>
    exact fun engine d c level hengine hd hpick =>
      onDev_next (decide_eq_true hengine) (dvGrantAt_picks hd hpick)

end Sys2Proof.Machine
end

section
/-!
PROOF. Transfers and flags whose time is over (12 R315, R320, R321).
-/

namespace Sys2Proof.Machine

theorem xferTimeoutAt_over {smod sctx : Nat} {xid : BitVec 32} {t : Track} {d : Dev}
    (hfind : d.fab.tracks.find? (fun t => t.isFor smod sctx xid) = some t) (hover : xferOver t (nowNs d) = true) :
    xferTimeoutAt smod sctx xid d =
      kzArrival t true (raiseFields xferTimeoutCls unitSwitch (some t.dctx)
        [(smod, 16), (sctx, 12), (xid.toNat, 32), (t.count, 32), (t.total.getD 0, 32)]
        (putTrack { t with tomb := some (nowNs d + 100000) } d)) := by
  simp [xferTimeoutAt, hfind, hover]

/-- The module without the tombstones whose time is over. -/
def tombsGone (d : Dev) : Dev :=
  { d with fab := { d.fab with
    tracks := d.fab.tracks.filter (fun t => t.tomb.all (fun u => decide (nowNs d < u)))
    tombs := d.fab.tombs.filter (fun t => decide (nowNs d < t.until_)) } }

theorem execTombstoneExpiry_eq (s : State) : execTombstoneExpiry s = .next { s with dev := tombsGone s.dev } := by
  refine onDev_next rfl ?_
  unfold tombsGone
  dsimp only
  congr 2
  refine List.filter_congr fun t _ => ?_
  cases t.tomb <;> rfl

/-- Settles O23, from the rule of each event. -/
theorem transfersExpire : Obligations.TransfersExpire := by
  intro s
  refine ⟨?timeout, ?gone, ⟨_, execTombstoneExpiry_eq s⟩, ?flag⟩
  case timeout =>
    exact fun smod sctx xid t hfind hover => onDev_next rfl (xferTimeoutAt_over hfind hover)
  case gone =>
    intro d h
    cases (execTombstoneExpiry_eq s).symm.trans h
    exact ⟨rfl, rfl, rfl⟩
  case flag =>
    intro cluster pflag hcluster hflag htomb hover
    show execFlagTombExpiry cluster pflag s = _
    exact onDev_next (by simp [hcluster, hflag]) (by simp [htomb, hover])

end Sys2Proof.Machine
end

section
/-!
PROOF. Contexts (13 R325 to R336, 14 R367, 17 R440): the admin ring's descriptors, pre-emption and the end of a switch.
-/

namespace Sys2Proof.Machine

/-! ### The admin ring -/

section

variable {kind : Nat} {run : Desc → Dev → Option (Option Nat × Dev)} {x : Desc} {d e : Dev}
  (hstart : startable adminRing kind d = some x) (hform : descBad x = false)

include hstart hform

theorem adminStart_completes {code : Nat} (hrun : run x d = some (some code, e)) :
    adminStart kind run d = settleRing adminRing (complete adminRing x code 0 (popTaken adminRing 1 e)) := by
  simp [adminStart, hstart, hform, hrun]

/-- A descriptor whose completion comes later leaves the ring. -/
theorem adminStart_goesOn (hrun : run x d = some (none, e)) :
    adminStart kind run d = settleRing adminRing (popTaken adminRing 1 e) := by
  simp [adminStart, hstart, hform, hrun]

end

section

variable {x : Desc} {d e : Dev} (hform : descBad x = false)

include hform

theorem createRow_installs {f : Fuse} {ctx a : Nat} (hstart : startable adminRing kCtxCreate d = some x)
    (hctx : ctx = bitsOf x.word 75 64) (ha : a = bitsOf x.word 175 128) (hspace : a + 256 ≤ 2 ^ 48)
    (hclean : (firstPoison d true a 256).isSome = false)
    (hcheck : createError f d ctx (readMem d true a 256) (parseCtx (readMem d true a 256)) = 0)
    (hinstall : installCtx ctx (readMem d true a 256) (parseCtx (readMem d true a 256)) d = some e) :
    createRow f d = settleRing adminRing (complete adminRing x 0 0 (popTaken adminRing 1 e)) := by
  subst hctx ha
  refine adminStart_completes hstart hform ?_
  simp only [if_neg (Nat.not_lt.2 hspace), hclean, hcheck, hinstall, ne_eq, not_true_eq_false, if_false,
    Bool.false_eq_true, Option.map_some]

theorem destroyRow_ends {ctx : Nat} (hstart : startable adminRing kCtxDestroy d = some x)
    (hctx : ctx = bitsOf x.word 75 64) (hstate : (ctxAt d ctx).state ≠ .free)
    (hfree : rangeHeld d (ctxAt d ctx).flagBase (4 * (ctxAt d ctx).flagCount) = false) :
    destroyRow d =
      settleRing adminRing (complete adminRing x 0 0 (popTaken adminRing 1 (resideAll (destroyCtx ctx d)))) := by
  subst hctx
  exact adminStart_completes hstart hform (by simp [hstate, hfree])

theorem switchRow_begins {out : Nat} {inn : Option Nat} (hstart : startable adminRing kCtxSwitch d = some x)
    (hout : out = bitsOf x.word 75 64) (hinn : inn = if bitOf x.word 95 then none else some (bitsOf x.word 91 80))
    (hnone : d.hostp.switch = none) (hresident : (ctxAt d out).state = .resident)
    (hwaits : ∀ i ∈ inn, ctxWaits (ctxAt d i) = true) :
    switchRow d = settleRing adminRing (popTaken adminRing 1 (switchBegin out inn (some x.seqNo) d)) := by
  subst hout
  refine adminStart_goesOn hstart hform ?_
  simp only [← hinn, hnone, hresident]
  cases inn with
  | none => rfl
  | some i =>
    simp only [hwaits i rfl]
    rfl

theorem planRow_keeps {ts : List Nat} (hstart : startable adminRing kClockPlan d = some x) (hnone : d.pwr.plan = none)
    (htime : applyTimeOk d (bitsOf x.word 127 64) = true)
    (hts : ts = (List.range 20).map (fun k => bitsOf x.word (133 + 6 * k) (128 + 6 * k)))
    (htargets : ∀ y ∈ ts, y ≤ 42 ∨ y = 63) :
    planRow d =
      settleRing adminRing (popTaken adminRing 1 { d with
        pwr := { d.pwr with plan := some { t := bitsOf x.word 127 64, targets := ts, seqNo := x.seqNo } } }) := by
  have hgood : ts.any (fun y => decide (42 < y) && y != 63) = false :=
    List.any_eq_false.2 fun y hy => by
      have := htargets y hy
      simp only [Bool.and_eq_true, decide_eq_true_eq, bne_iff_ne]
      omega
  refine adminStart_goesOn hstart hform ?_
  simp only [← hts, hnone, htime, hgood]
  rfl

end

/-! ### Pre-emption and the end of a switch (R329, R334) -/

section

variable {ctx : Nat} {holders : List Nat} {d : Dev} (hwants : (ctxAt d ctx).wants = true)
  (hwaits : ctxWaits (ctxAt d ctx) = true) (hnone : d.hostp.switch = none) (hfirst : mustYield d ctx = false)
  (hholders : holders = ((coresOf (ctxAt d ctx)).filterMap (fun c => (coreAt d c).resident)).eraseDups)

include hwants hwaits hnone hfirst hholders

theorem preempt_switches {h : Nat}
    (hfind : holders.find? (fun h => (ctxAt d h).state == .resident
      && (decide ((ctxAt d h).prio < (ctxAt d ctx).prio)
        || ((ctxAt d h).ran && (ctxAt d h).launches == []))) = some h) :
    preempt ctx d = switchBegin h (some ctx) none d := by
  subst hholders
  simp only [preempt, hwants, hwaits, hnone, hfirst, Option.isSome_none, Bool.not_true, Bool.or_self, Bool.false_eq_true,
    if_false, hfind]

theorem preempt_takes (hempty : holders = []) : preempt ctx d = reside ctx d := by
  rw [hempty] at hholders
  simp [preempt, hwants, hwaits, hnone, hfirst, ← hholders]

end

theorem drainDone_completes {w : Switch} {out : Nat} {q : BitVec 32} {d e f : Dev} (hswitch : d.hostp.switch = some w)
    (hout : w.out = some out) (hseq : w.seqNo = some q) (hstill : stillDrains d out = false)
    (hstate : (ctxAt d out).state = .draining)
    (hleave : leaveCores out { d with hostp := { d.hostp with switch := none } } = some e)
    (hf : f = resideAll (switchIn w.inn e)) :
    drainDone d =
      settleRing adminRing (pushComp adminRing {
          seqNo := q, kind := kCtxSwitch
          error := if (ctxAt f out).state = .faulted then (ctxAt f out).faultCode else 0 } f) := by
  subst hf
  simp [drainDone, hswitch, hout, hseq, hstill, hstate, hleave]

/-- Settles O36, from the rule of each row and event. -/
theorem contextsAct : Obligations.ContextsAct := by
  refine ⟨fun s x hform => ⟨?create, ?destroy, ?switch, ?plan⟩, fun s => ⟨?preempt, ?drained⟩⟩
  case create =>
    intro ctx a hstart hctx ha hspace hclean hcheck d hinstall
    show execCtxCreate s = _
    exact onFuse_next rfl (createRow_installs hform hstart hctx ha hspace hclean hcheck hinstall)
  case destroy =>
    exact fun ctx hstart hctx hstate hfree => onDev_next rfl (destroyRow_ends hform hstart hctx hstate hfree)
  case switch =>
    exact fun out inn hstart hout hinn hnone hresident hwaits =>
      onDev_next rfl (switchRow_begins hform hstart hout hinn hnone hresident hwaits)
  case plan =>
    exact fun hstart hnone htime ts hts htargets =>
      onDev_next rfl (planRow_keeps hform hstart hnone htime hts htargets)
  case preempt =>
    intro ctx holders hctx hwants hwaits hnone hfirst hholders
    have hknown : decide (ctx < 4096) = true := decide_eq_true hctx
    exact ⟨fun h hfind => onDev_next hknown (preempt_switches hwants hwaits hnone hfirst hholders hfind),
      fun hempty => onDev_next hknown (preempt_takes hwants hwaits hnone hfirst hholders hempty)⟩
  case drained =>
    exact fun w out q d e hswitch hout hseq hstill hstate hleave hd =>
      onDev_next rfl (drainDone_completes hswitch hout hseq hstill hstate hleave hd)

end Sys2Proof.Machine
end

section
/-!
PROOF. Packets at a hop and at their destination (15 R381 to R388, 16 R400, R405, R408, R411): one rule per way that a
packet goes.
-/

namespace Sys2Proof.Machine

/-! ### Data packets at their ingress (R388, R400) -/

/-- What a data packet that a routed port takes has passed: its header check, its form, its length and its deadline. -/
structure DataTaken (d : Dev) (port : Nat) (bs : List Byte) : Prop where
  routed : (portAt d port).state = .routed
  head : 64 ≤ bs.length
  hcrc : hcrcOk bs = true
  kind : (parseData bs).kind ≤ 2
  vc : (parseData bs).vc ≤ 4
  len : lengthOk bs = true
  live : expired (nowNs d) (parseData bs).deadline = false

section

variable {d : Dev} {port : Nat} {bs : List Byte} {k : Pkt} (h : DataTaken d port bs)
  (hk : k = { bytes := bs, ingress := some port, vc := (parseData bs).vc, inVc := (parseData bs).vc, at_ := nowNs d })

include h hk

theorem dataForward_here (hvalid : d.tab.modidValid = true) (hmod : (parseData bs).dmod = d.tab.modid) :
    dataForward port bs d = { d with fab := { d.fab with loc := d.fab.loc ++ [k] } } := by
  subst hk
  simp [dataForward, h.routed, Nat.not_lt.2 h.head, h.hcrc, Nat.not_lt.2 h.kind, Nat.not_lt.2 h.vc, h.len, h.live, hvalid,
    hmod]

theorem dataForward_hop {out vc : Nat} {dlx : Bool}
    (hother : ¬ (d.tab.modidValid = true ∧ (parseData bs).dmod = d.tab.modid))
    (hroute : route d (some port) (parseData bs).epoch (parseData bs).vc (parseData bs).dlx (parseData bs).dmod
      = some (out, vc, dlx)) (hcarries : carries (portAt d out) false = true) :
    dataForward port bs d =
      toEgress out { k with vc := vc, bytes := setHop vc dlx (((parseData bs).hops + 1) % 32) bs } d := by
  subst hk
  have hnot : (d.tab.modidValid && (parseData bs).dmod == d.tab.modid) = false := by simpa using hother
  simp [dataForward, h.routed, Nat.not_lt.2 h.head, h.hcrc, Nat.not_lt.2 h.kind, Nat.not_lt.2 h.vc, h.len, h.live, hnot,
    hroute, hcarries]

end

/-! ### Egress and control packets (R381, R388, R394, R408) -/

theorem egressGrantAt_sends {port : Nat} {k : Pkt} {d e : Dev} (he : e = dropEgress port dropExpired (pktExpired d) d)
    (hpick : egressPick e port = some k) : egressGrantAt port d = egressSend port k e := by
  subst he
  simp [egressGrantAt, hpick]

/-- The egress of a control packet: the next hop of its source route, or what the tables give. -/
theorem ctrlForward_hop {d : Dev} {port out : Nat} {bs : List Byte} {c : CtrlPkt} {k : Pkt}
    (hup : linkUp (portAt d port) = true) (hc : c = parseCtrl bs) (hlen : bs.length = 64) (hcrc : ctrlCrcOk bs = true)
    (htyp : c.typ ∈ [0x10, 0x11, 0x12, 0x13]) (hloc : c.loc = false) (hhere : mgHere d c = false)
    (hlive : expired (nowNs d) (ctrlDeadline (nowNs d) c.deadline) = false)
    (hsource : c.srcrt = true → hopPort (parseMg c.body) c.hops = out ∧ out < 18)
    (htables : c.srcrt = false → carries (portAt d port) false = true
      ∧ (route d (some port) c.epoch 5 c.dlx c.dmod).map (·.1) = some out)
    (hk : k = { bytes := setHop 5 c.dlx ((c.hops + 1) % 32) bs, ctrl := true, ingress := some port, vc := 5, inVc := 5
                at_ := nowNs d })
    (hcarries : carriesPkt (portAt d out) k = true) : ctrlForward port bs d = toEgress out k d := by
  subst hc hk
  have hknown : ([0x01, 0x02, 0x10, 0x11, 0x12, 0x13]).contains (parseCtrl bs).typ = true :=
    List.elem_eq_true_of_mem (List.mem_cons_of_mem _ (List.mem_cons_of_mem _ htyp))
  have hmgmt : ¬ (parseCtrl bs).typ < 0x10 := by
    simp only [List.mem_cons, List.not_mem_nil, or_false] at htyp
    omega
  simp only [ctrlForward, hup, hlen, hcrc, hknown, hmgmt, hloc, hhere, hlive, ne_eq, not_true_eq_false, decide_false,
    Bool.not_true, Bool.or_self, Bool.false_eq_true, if_false]
  cases hroute : (parseCtrl bs).srcrt with
  | true =>
    obtain ⟨rfl, hport⟩ := hsource hroute
    simp only [if_true, if_pos hport, hcarries]
  | false =>
    obtain ⟨hopen, hto⟩ := htables hroute
    simp only [Bool.false_eq_true, if_false, hopen, if_true, hto, hcarries]

/-- Settles O21, from the rule of each way that a packet goes. -/
theorem packetsMove : Obligations.PacketsMove := by
  intro s port hport
  have hknown : portKnown port = true := decide_eq_true hport
  refine ⟨?forward, ?grant, ?expiry, ?residence, ?control⟩
  case forward =>
    intro bs k hrouted hhead hhcrc hkind hvc hlen hlive hk
    have h : DataTaken s.dev port bs := ⟨hrouted, hhead, hhcrc, hkind, hvc, hlen, hlive⟩
    exact ⟨fun hvalid hmod => onDev_next hknown (dataForward_here h hk hvalid hmod),
      fun hother out vc dlx hroute hcarries => onDev_next hknown (dataForward_hop h hk hother hroute hcarries)⟩
  case grant => exact fun d k hd hpick => onDev_next hknown (egressGrantAt_sends hd hpick)
  case expiry =>
    show execPacketExpiry port s = _
    exact onDev_next hknown rfl
  case residence =>
    rintro hstate here old rfl rfl
    show execPacketResidence port s = _
    exact onDev_next hknown (if_pos hstate)
  case control =>
    intro out bs c hup hc hlen hcrc htyp hloc hhere hlive hsource htables k hk hcarries
    exact onDev_next hknown
      (ctrlForward_hop hup hc hlen hcrc htyp hloc hhere hlive hsource htables hk hcarries)

/-! ### Delivery (R385, R386, R405) -/

theorem deliver_works {sel : DataPkt → Bool} {work : Pkt → DataPkt → Dev → Option Dev} {k : Pkt} {d e : Dev}
    (hnext : nextLocal sel d = some k) (hcrc : dataCrcOk k.bytes = true)
    (hlive : expired (nowNs d) (parseData k.bytes).deadline = false)
    (hwork : work k (parseData k.bytes) { d with fab := { d.fab with loc := d.fab.loc.erase k } } = some e) :
    deliver sel work d = freeBuffer k.ingress k.inVc (flitsOf k.bytes) e := by
  simp [deliver, hnext, hcrc, hlive, hwork]

/-- Settles O22: each of the four rows delivers the oldest packet of its kind. -/
theorem deliveredPacketsAct : Obligations.DeliveredPacketsAct := by
  rintro i sel work s k d (⟨rfl, rfl, rfl⟩ | ⟨rfl, rfl, rfl⟩ | ⟨rfl, rfl, rfl⟩ | ⟨rfl, rfl, rfl⟩) hnext hcrc hlive hwork
  · exact onDev_next rfl (deliver_works hnext hcrc hlive hwork)
  · exact onDev_next rfl (deliver_works hnext hcrc hlive hwork)
  · exact onDev_next rfl (deliver_works hnext hcrc hlive hwork)
  · exact onDev_next rfl (deliver_works hnext hcrc hlive hwork)

end Sys2Proof.Machine
end

section
/-!
PROOF. Links (15 R372 to R378, R393, 16 R408, R409): training and its ends, the control flits, and received frames.
-/

namespace Sys2Proof.Machine

/-! ### Training and retraining (R372 to R375) -/

section

variable {port lanesOk : Nat} {d : Dev} (hfabric : fabricOn d = true) (hkept : (portAt d port).kept = false)

include hfabric hkept

theorem trainPort_enters {serial : BitVec 64} {peerPort : Nat} {half : Bool} (hdown : linkUp (portAt d port) = false)
    (hwidth : lanesWidth lanesOk = some half) :
    trainPort port lanesOk serial peerPort d =
      (if leAt (portAt d port).peer 0 8 = serial.toNat
            ∧ bitsOf (leAt (portAt d port).peer 8 8) 21 17 = peerPort then id
          else modPort port (fun p => { p with peer := [] }))
        (enterLocal port half (saveCoef port serial peerPort d)) := by
  by_cases hsame : leAt (portAt d port).peer 0 8 = serial.toNat
      ∧ bitsOf (leAt (portAt d port).peer 8 8) 21 17 = peerPort
  · simp [trainPort, hfabric, hkept, hdown, hwidth, hsame]
  · simp [trainPort, hfabric, hkept, hdown, hwidth, hsame]

theorem trainPort_waits {serial : BitVec 64} {peerPort : Nat} (hdown : linkUp (portAt d port) = false)
    (hwidth : lanesWidth lanesOk = none) (hdark : (portAt d port).state = .dark) :
    trainPort port lanesOk serial peerPort d = modPort port (fun p => { p with state := .training }) d := by
  simp [trainPort, hfabric, hkept, hdown, hwidth, hdark]

end

theorem retrainPort_up {port : Nat} {d : Dev} (hup : linkUp (portAt d port) = true) (cause : Nat) :
    retrainPort port cause d = leaveLink port .retrain cause d := if_pos hup

theorem not_retrain_of_linkUp {p : Port} (hup : linkUp p = true) : p.state ≠ .retrain := by
  obtain h | h := (linkUp_iff p).1 hup <;> simp [h]

/-- Settles O27, from what training and retraining do. -/
theorem linksTrain : Obligations.LinksTrain := by
  intro s port lanesOk hport hfabric hkept
  have hknown : portKnown port = true := decide_eq_true hport
  refine ⟨?detect, ?retrain, ?again⟩
  case detect =>
    intro serial peerPort hlanes hdown
    show (∀ half, _ → execLinkDetect port lanesOk serial peerPort s = _)
      ∧ (_ → _ → execLinkDetect port lanesOk serial peerPort s = _)
    exact ⟨fun half hwidth => onDev_next hknown
        ((if_neg (Nat.not_lt.2 hlanes)).trans (trainPort_enters hfabric hkept hdown hwidth)),
      fun hwidth hdark => onDev_next hknown
        ((if_neg (Nat.not_lt.2 hlanes)).trans (trainPort_waits hfabric hkept hdown hwidth hdark))⟩
  case retrain =>
    intro cause hup
    show execLinkRetrain port cause lanesOk s = _ ∧ execLinkDown port s = _
    exact ⟨onDev_next hknown ((if_neg (not_retrain_of_linkUp hup)).trans (retrainPort_up hup cause)),
      onDev_next hknown (retrainPort_up hup causeDown)⟩
  case again =>
    rintro cause half c hretrain hwidth rfl
    show execLinkRetrain port cause lanesOk s = _
    exact onDev_next hknown (by simp [hretrain, hwidth, hfabric, hkept])

/-! ### IDENT (R393) -/

section

variable {port : Nat} {d : Dev} (hup : linkUp (portAt d port) = true)

include hup

theorem identDue_sends {f : Fuse} {b : List Byte} (hb : b = identBody f d port) (hroom : identRoom d port = true)
    (hdue : (portAt d port).identOut ≠ b ∨ (portAt d port).identAt + 1000000 ≤ nowNs d) :
    identDue f port d =
      modPort port (fun p => { p with
        identOut := b
        identAt := nowNs d
        sent := p.sent.set 5 ((p.sent.getD 5 0 + 1) % 65536)
        out := packCtrl { vc := 5, typ := 2, loc := true, sunasg := !d.tab.modidValid, smod := d.tab.modid,
                          body := b } }) d := by
  subst hb
  simp [identDue, hup, hroom, hdue]

section

variable {bs b : List Byte} {e : Dev} {old : List Byte} {same : Bool} (hlen : bs.length = 64)
  (hcrc : ctrlCrcOk bs = true) (hb : b = (parseCtrl bs).body)
  (he : e = modPort port (fun p => { p with peer := b }) (freeBuffer (some port) 5 1 d))
  (hold : old = (portAt d port).peer)
  (hsame : same = decide (leAt old 0 8 = leAt b 0 8 ∧ bitsOf (leAt old 8 8) 21 17 = bitsOf (leAt b 8 8) 21 17))

include hlen hcrc hb he hold hsame

theorem identArrive_changed (f : Fuse) (hpeer : old ≠ []) (hother : same = false) :
    identArrive f port bs d =
      identRecord port b
        (modPort port (fun p => { p with routedBit := false }) (leaveRouted port causeIdent e)) := by
  subst hsame hb he hold
  rw [decide_eq_false_iff_not, not_and_or] at hother
  obtain hserial | hport := hother
  · simp [identArrive, hup, hlen, hcrc, hpeer, hserial]
  · simp [identArrive, hup, hlen, hcrc, hpeer, hport]

theorem identArrive_same (f : Fuse) (hkeeps : old = [] ∨ same = true) :
    identArrive f port bs d =
      if identClash f e b then identRecord port b (leaveRouted port causeIdent e) else tryRouted f port e := by
  subst hsame hb he hold
  obtain hnone | hone := hkeeps
  · simp [identArrive, hup, hlen, hcrc, hnone]
  · have hboth := of_decide_eq_true hone
    simp [identArrive, hup, hlen, hcrc, hboth]

end

/-! ### Link control (R374, R408, R409) -/

theorem sendCredit_advanced {n : Nat} {freed : List Nat} (hn : n = ((portAt d port).lcSeq + 1) % 256)
    (hfreed : freed = (portAt d port).ownFreed) (hnew : freed ≠ (portAt d port).told) :
    sendCredit port d =
      modPort port (fun p => { p with
        lcSeq := n
        told := freed
        out := packLc (leBytes 8 (packFields [(1, 8), (n, 8)])
          ++ leBytes 8 (packFields [(freed.getD 0 0, 16), (freed.getD 1 0, 16), (freed.getD 2 0, 16),
              (freed.getD 3 0, 16)])
          ++ leBytes 8 (packFields [(freed.getD 4 0, 16), (freed.getD 5 0, 16)])) }) d := by
  subst hn hfreed
  refine if_neg ?_
  simp [hup, hnew]

section

variable {bs : List Byte} {freed : List Nat} (hlc : lcOk bs = true) (hcode : leAt bs 0 1 = 1)
  (hfreed : freed = (List.range 6).map (fun i => leAt bs (8 + 2 * i) 2))

/-- Whether the count that a peer reports of a channel is beyond its buffer. -/
def creditBeyond (p : Port) (freed : List Nat) (v : Nat) : Bool :=
  decide (vcBuffer v < (p.sent.getD v 0 + 65536 - freed.getD v 0) % 65536)

include hlc hcode hfreed

theorem creditArrive_takes (hgood : ∀ v < 6, creditBeyond (portAt d port) freed v = false) :
    creditArrive port bs d = modPort port (fun p => { p with freed := freed }) d := by
  have hnone : (List.range 6).find? (creditBeyond (portAt d port) freed) = none :=
    List.find?_eq_none.2 fun v hv => by simp [hgood v (List.mem_range.1 hv)]
  subst hfreed
  unfold creditBeyond at hnone
  simp only [creditArrive, hup, hlc, hcode, ne_eq, not_true_eq_false, decide_false, Bool.not_true, Bool.or_self,
    Bool.false_eq_true, if_false, hnone]

theorem creditArrive_refuses {v : Nat} (hv : v < 6) (hbad : creditBeyond (portAt d port) freed v = true)
    (hfirst : ∀ w < v, creditBeyond (portAt d port) freed w = false) :
    creditArrive port bs d =
      leaveLink port .retrain causeCredit (raiseFields fabCredit (unitPort port) none
        [(port, 8), (v, 3), (freed.getD v 0, 16), ((portAt d port).sent.getD v 0, 16)] d) := by
  have hfind : (List.range 6).find? (creditBeyond (portAt d port) freed) = some v := by
    rw [List.find?_range_eq_some]
    exact ⟨hbad, List.mem_range.2 hv, fun w hw => by simp [hfirst w hw]⟩
  subst hfreed
  unfold creditBeyond at hfind
  simp only [creditArrive, hup, hlc, hcode, ne_eq, not_true_eq_false, decide_false, Bool.not_true, Bool.or_self,
    Bool.false_eq_true, if_false, hfind]
  refine retrainPort_up ?_ _
  unfold portAt at hup ⊢
  rw [(raiseFields_kept _ _ _ _ d).ports]
  exact hup

end

theorem retrainArrive_retrains {bs : List Byte} (hlc : lcOk bs = true) (hcode : leAt bs 0 1 = 2) :
    retrainArrive port bs d = leaveLink port .retrain causePeer d := by
  simp [retrainArrive, hlc, hcode, retrainPort_up hup]

theorem lanesArrive_keeps {bs : List Byte} (hlc : lcOk bs = true) (hcode : leAt bs 0 1 = 3) :
    lanesArrive port bs d = modPort port (fun p => { p with laneOk := leAt bs 8 2 }) d := by
  simp [lanesArrive, hup, hlc, hcode]

end

/-- Settles O28, from the rule of each flit. -/
theorem linkFlitsAct : Obligations.LinkFlitsAct := by
  intro s port hport hup
  have hknown : portKnown port = true := decide_eq_true hport
  refine ⟨?identSend, ?ident, ?creditSend, ?credit, ?retrain, ?lanes⟩
  case identSend =>
    intro b hb hroom hdue
    show execIdentSend port s = _
    exact onFuse_next hknown (identDue_sends hup hb hroom hdue)
  case ident =>
    intro bs b d old same hlen hcrc hb hd hold hsame
    show (_ → _ → execIdent port bs s = _) ∧ (_ → execIdent port bs s = _)
    exact ⟨fun hpeer hother =>
        onFuse_next hknown (identArrive_changed hup hlen hcrc hb hd hold hsame s.fuse hpeer hother),
      fun hkeeps => onFuse_next hknown (identArrive_same hup hlen hcrc hb hd hold hsame s.fuse hkeeps)⟩
  case creditSend => exact fun n freed hn hfreed hnew => onDev_next hknown (sendCredit_advanced hup hn hfreed hnew)
  case credit =>
    intro bs freed hlc hcode hfreed
    refine ⟨fun hgood => ?takes, fun v hv hbad hfirst => ?refuses⟩
    case takes =>
      exact onDev_next hknown
        (creditArrive_takes hup hlc hcode hfreed fun v hv => decide_eq_false (Nat.not_lt.2 (hgood v hv)))
    case refuses =>
      exact onDev_next hknown
        (creditArrive_refuses hup hlc hcode hfreed hv (decide_eq_true hbad)
          fun w hw => decide_eq_false (Nat.not_lt.2 (hfirst w hw)))
  case retrain => exact fun bs hlc hcode => onDev_next hknown (retrainArrive_retrains hup hlc hcode)
  case lanes => exact fun bs hlc hcode => onDev_next hknown (lanesArrive_keeps hup hlc hcode)

/-! ### Frames (R377, R378) -/

/-- The eight slots of a decoded frame, one after the other. -/
def slotsArrive (f : Fuse) (port : Nat) (out : List Byte) (d : Dev) : Dev :=
  (List.range 8).foldl (fun d k =>
    slotArrive f port (out.getD (512 + k) 0).toNat ((out.drop (64 * k)).take 64) d) d

section

variable {port : Nat} {bs : List Byte} {d : Dev} (hup : linkUp (portAt d port) = true) (hlen : bs.length = 544)

include hup hlen

theorem frameArrive_clean {out : List Byte} (f : Fuse) (hdecode : decodeFrame bs = some (out, [])) :
    frameArrive f port bs d = slotsArrive f port out d := by
  simp [frameArrive, slotsArrive, hup, hlen, hdecode]

theorem frameArrive_corrected {out : List Byte} {j : Nat} {js : List Nat} {e : Dev} (f : Fuse)
    (hdecode : decodeFrame bs = some (out, j :: js))
    (he : e = raiseFields fabFecCe (unitPort port) none [(port, 8),
        (if (portAt d port).half then j / 4 % 4 else j / 4 % 8, 8), (js.length + 1, 32)]
      (modPort port (fun p => { p with corrected := p.corrected + (js.length + 1) }) d)) :
    frameArrive f port bs d = slotsArrive f port out e := by
  subst he
  simp [frameArrive, slotsArrive, hup, hlen, hdecode]

theorem frameArrive_bad (f : Fuse) (hdecode : decodeFrame bs = none) : frameArrive f port bs d = badFrame port d := by
  simp [frameArrive, hup, hlen, hdecode]

end

/-- Settles O29, from the three ways in which a frame decodes. -/
theorem framesArrive : Obligations.FramesArrive := by
  intro s port bs hport hup hlen
  have hknown : portKnown port = true := decide_eq_true hport
  show (∀ out, _ → execFrame port bs s = _) ∧ (∀ out j js d, _ → _ → execFrame port bs s = _)
    ∧ (_ → execFrame port bs s = _)
  exact ⟨fun out hdecode => onFuse_next hknown (frameArrive_clean hup hlen s.fuse hdecode),
    fun out j js d hdecode hd => onFuse_next hknown (frameArrive_corrected hup hlen s.fuse hdecode hd),
    fun hdecode => onFuse_next hknown (frameArrive_bad hup hlen s.fuse hdecode)⟩

end Sys2Proof.Machine
end

section
/-!
PROOF. Management packets and the fabric-manager mailbox (15 R394, R395, 21 R540 to R542).
-/

namespace Sys2Proof.Machine

/-! ### Serving a packet -/

theorem mgRegion_eq (lo n : Nat) : mgRegion lo n = fun m => decide (lo ≤ m.addr ∧ m.addr < lo + n) := by
  funext m
  simp [mgRegion, within]

/-- Each management row takes the packets of its types and its part of the window. -/
theorem exec_of_mgmtRow {i : Instr} {port : Option Nat} {bs : List Byte} {types : List Nat} {want : MgBody → Bool}
    (h : mgmtRow i = some (port, bs, types, want)) (s : State) :
    exec i s = onFuse (optPortKnown port) (fun f d => mgArrive f port types want bs d) s := by
  cases i with
  | mgmtWrite | mgmtRead | mgmtReply | mgmtAssign =>
    cases h
    rfl
  | portRouted port bs =>
    cases h
    exact congrArg (fun w => onFuse _ (fun f d => mgArrive f port [0x10] w bs d) s) (mgRegion_eq 0x2000 144)
  | portRetrain port bs =>
    cases h
    exact congrArg (fun w => onFuse _ (fun f d => mgArrive f port [0x10] (fun m => w m && bitOf m.data 1) bs d) s)
      (mgRegion_eq 0x2000 144)
  | rtDecl port bs =>
    cases h
    exact congrArg (fun w => onFuse _ (fun f d => mgArrive f port [0x10] w bs d) s) (mgRegion_eq 0x4000 8)
  | ttDecl port bs =>
    cases h
    exact congrArg (fun w => onFuse _ (fun f d => mgArrive f port [0x10] w bs d) s) (mgRegion_eq 0x4010 8)
  | routingEntryStage port bs =>
    cases h
    exact congrArg (fun w => onFuse _ (fun f d => mgArrive f port [0x10] w bs d) s) (mgRegion_eq 0x1000000 0x900000)
  | timetableStage port bs =>
    cases h
    exact congrArg (fun w => onFuse _ (fun f d => mgArrive f port [0x10] w bs d) s) (mgRegion_eq 0x2000000 0x120000)
  | _ => cases h

theorem optPortKnown_of_up {port : Option Nat} {d : Dev} (h : ∀ n ∈ port, n < 18 ∧ linkUp (portAt d n) = true) :
    optPortKnown port = true := by
  cases port with
  | none => rfl
  | some n => exact decide_eq_true (h n rfl).1

theorem mgArrive_serves {f : Fuse} {port : Option Nat} {bs : List Byte} {types : List Nat} {want : MgBody → Bool} {d : Dev}
    (hup : ∀ n ∈ port, n < 18 ∧ linkUp (portAt d n) = true) (hlen : bs.length = 64) (hcrc : ctrlCrcOk bs = true)
    (htyp : (parseCtrl bs).typ ∈ types) (hwant : want (parseMg (parseCtrl bs).body) = true)
    (hhere : mgHere d (parseCtrl bs) = true)
    (hlive : expired (nowNs d) (ctrlDeadline (nowNs d) (parseCtrl bs).deadline) = false) :
    mgArrive f port types want bs d = freeBuffer port 5 1 (mgDeliver f (parseCtrl bs) bs d) := by
  cases port with
  | none => simp [mgArrive, hlen, hcrc, htyp, hwant, hhere, hlive]
  | some n => simp [mgArrive, (hup n rfl).2, hlen, hcrc, htyp, hwant, hhere, hlive]

/-- Settles O30: the row takes the packet, which is served. -/
theorem managementServed : Obligations.ManagementServed := by
  intro i s port bs types want hrow hup hlen hcrc htyp hwant hhere hlive
  rw [exec_of_mgmtRow hrow s]
  exact onFuse_next (optPortKnown_of_up hup) (mgArrive_serves hup hlen hcrc htyp hwant hhere hlive)

/-! ### What a request does (R394, R395, R541) -/

section

variable {c : CtrlPkt} (f : Fuse) (d : Dev)

theorem mgServe_assign (htyp : c.typ = 0x13) : (mgServe f c d).2 = assignId (parseMg c.body).data d := by
  simp [mgServe, htyp]

theorem mgServe_read {v : Nat} (htyp : c.typ = 0x11) (hread : winRead f d (parseMg c.body).addr = some v)
    (hnarrow : (parseMg c.body).wide = false) :
    (mgServe f c d).1.status = 0 ∧ (mgServe f c d).1.data = v ∧ (mgServe f c d).2 = d := by
  simp [mgServe, htyp, hread, hnarrow]

theorem mgServe_write (htyp : c.typ = 0x10) :
    (mgServe f c d).1.status
        = (winWrite f (parseMg c.body).addr (parseMg c.body).wide (parseMg c.body).data c.smod d).1
      ∧ (mgServe f c d).2
        = (winWrite f (parseMg c.body).addr (parseMg c.body).wide (parseMg c.body).data c.smod d).2 := by
  simp [mgServe, htyp]

/-- The control words of the ports are eight bytes each from 0x2000 on. -/
theorem winRead_port {port : Nat} (hport : port < 18) : (winRead f d (0x2000 + 8 * port)).isNone = false := by
  have halign : (0x2000 + 8 * port) % 8 = 0 := by omega
  have hident : ¬ 0x2000 + 8 * port < 48 := by omega
  have hpeers : within (0x2000 + 8 * port) 0x1000 (18 * 0x40) = false := by
    simp [within]
    omega
  have hports : within (0x2000 + 8 * port) 0x2000 (18 * 8) = true := by
    simp [within]
    omega
  simp [winRead, halign, hident, hpeers, hports]

theorem winWrite_port {port : Nat} (hport : port < 18) (data requester : Nat) :
    winWrite f (0x2000 + 8 * port) false data requester d = (0, writePort f port data d) := by
  have hdecl : ¬ (0x2000 + 8 * port = 0x4000 ∨ 0x2000 + 8 * port = 0x4010) := by omega
  have hroutes : within (0x2000 + 8 * port) 0x1000000 (18 * 0x80000) = false := by
    simp [within]
    omega
  have hbays : within (0x2000 + 8 * port) 0x2000000 (18 * 0x10000) = false := by
    simp [within]
    omega
  have hports : within (0x2000 + 8 * port) 0x2000 (18 * 8) = true := by
    simp [within]
    omega
  have hindex : (0x2000 + 8 * port - 0x2000) / 8 = port := by omega
  simp only [winWrite, if_neg hdecl, winRead_port f d hport, hroutes, hbays, hports, hindex, Bool.false_eq_true, if_false,
    if_true, mgDone]

end

/-- Settles O31, from what serving each type of request does. -/
theorem managementEffects : Obligations.ManagementEffects := by
  intro f c d
  refine ⟨mgServe_assign f d, fun htyp v hread hnarrow => mgServe_read f d htyp hread hnarrow, ?write⟩
  case write =>
    intro htyp port hport haddr hnarrow
    obtain ⟨hstatus, hdev⟩ := mgServe_write f d htyp
    rw [haddr, hnarrow, winWrite_port f d hport] at hstatus hdev
    exact ⟨hstatus, hdev⟩

/-! ### The fabric-manager mailbox (R540) -/

theorem fmStart_sends {f : Fuse} {count : Nat} {d : Dev} (hidle : d.pier.fmBusy = []) (hlow : 1 ≤ count)
    (hhigh : count ≤ 512) :
    fmStart f count d =
      (List.range count).foldl (fmSend f) { d with pier := { d.pier with fmDone := false, fmOverrun := false } } := by
  have hform : ¬ (count = 0 ∨ 512 < count) := by omega
  simp only [fmStart, hidle, ne_eq, not_true_eq_false, if_false, if_neg hform]

theorem fmStart_overrun {f : Fuse} {count : Nat} {d : Dev} (hbusy : d.pier.fmBusy ≠ []) :
    fmStart f count d = { d with pier := { d.pier with fmOverrun := true } } := if_pos hbusy

theorem fmTimeout_answers {slot : Nat} {r : Nat × BitVec 32 × Nat} {d e : Dev} {left : List (Nat × BitVec 32 × Nat)}
    (hfind : d.pier.fmBusy.find? (fun r => r.1 == slot) = some r) (hover : r.2.2 + 1000000 ≤ nowNs d)
    (he : e = hostPut (d.pier.fmBuf + 0x8000 + 64 * slot)
      (packCtrl { typ := 0x12, smod := d.tab.modid, body := packMg { seqNo := r.2.1, op := 2, status := 0xFF } }) d)
    (hleft : left = e.pier.fmBusy.filter (fun x => x.1 != slot)) :
    fmTimeout slot d =
      if left = [] then attnSet 11 { e with pier := { e.pier with fmBusy := [], fmDone := true } }
        else { e with pier := { e.pier with fmBusy := left } } := by
  have hlong : ¬ nowNs d < r.2.2 + 1000000 := Nat.not_lt.2 hover
  simp only [fmTimeout, hfind, if_neg hlong, ← he, ← hleft]
  split
  next hlast => rw [hlast]
  next => rfl

/-- Settles O32, from the rule of each event. -/
theorem fabricManagerActs : Obligations.FabricManagerActs := by
  intro s
  refine ⟨fun hopen => ?command, ?timeout⟩
  case command =>
    show (∀ count, _ → _ → _ → execFmCmd count s = _) ∧ (∀ count, _ → execFmCmd count s = _)
    exact ⟨fun count hidle hlow hhigh => onFuse_next rfl ((if_pos hopen).trans (fmStart_sends hidle hlow hhigh)),
      fun count hbusy => onFuse_next rfl ((if_pos hopen).trans (fmStart_overrun hbusy))⟩
  case timeout =>
    exact fun slot r d left hfind hover hd hleft => onDev_next rfl (fmTimeout_answers hfind hover hd hleft)

end Sys2Proof.Machine
end

section
/-!
PROOF. The host port of 17: the rings (R430 to R434, R443) and the host link (R423 to R426).
-/

namespace Sys2Proof.Machine

/-! ### Rings (R430 to R434, R443) -/

/-- The module attends to every ring that it has. -/
theorem ringKnown_of_le {ring : Nat} (h : ring ≤ 4096) : ringKnown ring = true := decide_eq_true h

/-- A re-read whose counts are in range takes both. -/
theorem doorbellRead_inRange {ring : Nat} {d e e' : Dev} {x : Ring} {tail head : BitVec 32} (hx : x = ringAt d ring)
    (hlive : x.live = true) (hsnooped : x.snooped = true) (hhalted : x.halted = false) (hlink : d.hostp.link = true)
    (hclean : linePoisoned d true x.db = false) (htail : tail = BitVec.ofNat 32 (readMemLe d true x.db 4))
    (hhead : head = BitVec.ofNat 32 (readMemLe d true (x.db + 4) 4)) (hroom : (tail - x.sqHead).toNat ≤ 2 ^ x.sqLog2)
    (hforward : (x.sqTail - x.sqHead).toNat ≤ (tail - x.sqHead).toNat)
    (he : e = modRing ring (fun x => { x with snooped := false, cqHead := head, stall := false }) d)
    (he' : e' = (if ringCaptured e ring then
        kzRecord 2 ((ringCtx ring).getD 0) (packFields [(tail.toNat, 32), (head.toNat, 32)]) 0 [] e else e)) :
    doorbellRead ring d = modRing ring (fun x => { x with sqTail := tail })
      (if e'.hostp.rings.any (fun y => y.2.live && y.2.snooped) then e'
        else { e' with hostp := { e'.hostp with reread := false } }) := by
  subst htail hhead he he' hx
  unfold doorbellRead
  simp only [hlive, hsnooped, hhalted, hlink, hclean, decide_eq_false (not_lt.2 hroom),
    decide_eq_false (not_lt.2 hforward), Bool.not_true, Bool.or_false, Bool.false_eq_true, ite_false]

/-- A ring with a free completion slot takes its next descriptor. -/
theorem takeOne_takes {ring a : Nat} {d e : Dev} {x : Ring} {y : Desc} (hx : x = ringAt d ring)
    (hready : d.pwr.phase = .ready) (hlink : d.hostp.link = true) (hreread : d.hostp.reread = false)
    (hlive : x.live = true) (hhalted : x.halted = false) (hdrop : x.drop = false) (hnew : x.sqHead ≠ x.sqTail)
    (hslot : (x.sqHead - x.cqHead).toNat < 2 ^ x.cqLog2) (ha : a = x.sqBase + 64 * (x.sqHead.toNat % 2 ^ x.sqLog2))
    (hy : y = parseSd (readMem d true a 64)) (hclean : linePoisoned d true a = false)
    (he : e = modRing ring (fun x => { x with taken := x.taken ++ [y] })
      (modRing ring (fun x => { x with sqHead := x.sqHead + 1, stall := false }) d)) :
    takeOne ring d = settleRing ring (if y.group = 0 then kzSubmit ring (x.sqHead + 1) y e else e) := by
  subst ha hy he hx
  refine (if_neg (by simp [hready, hlink, hreread, hlive, hhalted, hdrop, hnew])).trans ?_
  refine (if_neg (not_le.2 hslot)).trans ((if_neg (by simp [hclean])).trans ?_)
  simp only [bne_iff_ne, ite_not]

/-- A ring without a free completion slot stalls. -/
theorem takeOne_stalls {ring : Nat} {d : Dev} {x : Ring} (hx : x = ringAt d ring) (hready : d.pwr.phase = .ready)
    (hlink : d.hostp.link = true) (hreread : d.hostp.reread = false) (hlive : x.live = true) (hhalted : x.halted = false)
    (hdrop : x.drop = false) (hnew : x.sqHead ≠ x.sqTail) (hfull : 2 ^ x.cqLog2 ≤ (x.sqHead - x.cqHead).toNat)
    (hstall : x.stall = false) :
    takeOne ring d = attnSet 3 (modRing ring (fun x => { x with stall := true }) d) := by
  subst hx
  refine (if_neg (by simp [hready, hlink, hreread, hlive, hhalted, hdrop, hnew])).trans ?_
  exact (if_pos hfull).trans (if_neg (by simp [hstall]))

/-- With the link up the oldest completion is written as the ring's next record. -/
theorem writeComp_writes {ring : Nat} {d e : Dev} {x : Ring} {c : Comp} {cs : List Comp} {b : Nat × List Byte}
    (hx : x = ringAt d ring) (hcomps : x.comps = c :: cs) (hlink : d.hostp.link = true) (he : e = attnSet 0 d)
    (hb : b = compBytes e x c) :
    writeComp ring d = hostPut b.1 b.2 (modRing ring (fun x => { x with comps := cs, cqWritten := x.cqWritten + 1 }) e) := by
  subst he hb hx
  have hstays : (modRing ring (fun x => { x with comps := cs, cqWritten := x.cqWritten + 1 }) (attnSet 0 d)).hostp.link
      = true := (congrArg HostPort.link (attnSet_kept 0 d).hostp).trans hlink
  unfold writeComp
  simp only [hcomps, hlink, Bool.not_true, Bool.false_and, Bool.false_eq_true, ite_false]
  exact if_pos hstays

/-- Settles O33, from the rule of each event. -/
theorem ringsMove : Obligations.RingsMove := by
  unfold Obligations.RingsMove
  refine ⟨?_, fun s ring x hring hx => ⟨?_, ?_⟩⟩
  · intro s ring x tail head d d2 hring hx hlive hsnooped hhalted hlink hclean htail hhead hroom hforward hd hd2
    exact onDev_next (ringKnown_of_le hring)
      (doorbellRead_inRange hx hlive hsnooped hhalted hlink hclean htail hhead hroom hforward hd hd2)
  · intro hready hlink hreread hlive hhalted hdrop hnew
    refine ⟨fun hslot a e d ha he hclean hd => ?_, fun hfull hstall => ?_⟩
    · exact onDev_next (ringKnown_of_le hring)
        (takeOne_takes hx hready hlink hreread hlive hhalted hdrop hnew hslot ha he hclean hd)
    · exact onDev_next (ringKnown_of_le hring)
        (takeOne_stalls hx hready hlink hreread hlive hhalted hdrop hnew hfull hstall)
  · intro c cs d e b hcomps hlink hd hb he
    refine onDev_next (ringKnown_of_le hring) ?_
    unfold completionRecord
    rw [writeComp_writes hx hcomps hlink hd hb, ← he]

/-! ### The host link (R423 to R426) -/

/-- Settles O37, from the condition of each event. -/
theorem hostLinkMoves : Obligations.HostLinkMoves := by
  intro s
  refine ⟨fun hdown hallowed => ⟨fun width rate cxl31 hmode => ?_, ?_⟩, fun width rate hlink hmode => ?_, ?_, ?_⟩
  · refine onDev_next rfl ?_
    unfold hostTrain
    simp [hdown, hallowed, hmode]
  · show execHostLinkUp s = _
    refine onDev_next rfl ?_
    simp [hdown, hallowed]
  · show execHostLink width rate s = _
    refine onDev_next rfl ?_
    simp [hlink, hmode]
  · exact onDev_next rfl rfl
  · intro hready hlink hbase hsize hlargest hspan
    have hunit : ∀ n, n % 2 ^ 28 = 0 → aligned (256 * 2 ^ 20) n = true := fun n h => by
      unfold aligned
      exact beq_iff_eq.2 h
    refine onDev_next rfl ?_
    unfold hdmCommit
    simp only [hready, hlink, hunit _ hbase, hunit _ hsize, hlargest, hspan, decide_true, Bool.and_true, ite_true]

end Sys2Proof.Machine
end

section
/-!
PROOF. The management bus of 21 (R557, R558).
-/

namespace Sys2Proof.Machine

theorem smReply_answers {d : Dev} (hpower : d.pwr.phase ≠ .unpowered) (bs : List Byte) :
    smReply true bs d = { d with pwr := { d.pwr with smbus := some bs } } := by
  simp [smReply, hpower]

theorem smReply_notAcknowledged {ok : Bool} {d : Dev} (h : ok = false ∨ d.pwr.phase = .unpowered) (bs : List Byte) :
    smReply ok bs d = { d with pwr := { d.pwr with smbus := none } } := by
  have hfails : (ok && d.pwr.phase != .unpowered) = false := by
    rcases h with h | h <;> simp [h]
  simp [smReply, hfails]

/-- Settles O42, from the two ways in which a transaction ends. -/
theorem managementBusReplies : Obligations.ManagementBusReplies := by
  intro s reply hreply
  subst hreply
  refine ⟨fun hpower => ?_, fun i ok v hi hnot => ?_⟩
  · have answers (bs : List Byte) := smReply_answers hpower bs
    refine ⟨?_, ?_, ?_, ?_, ?_, ?_, ?_, fun v hv => ?_, ?_, fun v hv => ?_⟩
    · exact onDev_next rfl (answers _)
    · show execSmIdent true s = _
      exact onFuse_next rfl (answers _)
    · exact onDev_next rfl (answers _)
    · exact onDev_next rfl (answers _)
    · exact onDev_next rfl (answers _)
    · exact onDev_next rfl (answers _)
    · show execSmAlertClr true 1 s = _
      refine onDev_next rfl ?_
      simp only [answers]
      rfl
    · show execSmAlertClr true v s = _
      refine onDev_next rfl ((if_neg ?_).trans (answers []))
      rw [beq_eq_false_iff_ne.2 hv, Bool.and_false]
      exact Bool.false_ne_true
    · show execSmRestart true 0xA5 s = _
      refine onDev_next rfl ?_
      simp only [answers]
      rfl
    · show execSmRestart true v s = _
      refine onDev_next rfl ((if_neg ?_).trans (answers []))
      rw [beq_eq_false_iff_ne.2 hv, Bool.and_false]
      exact Bool.false_ne_true
  · have ends := smReply_notAcknowledged hnot
    simp only [List.mem_cons, List.not_mem_nil, or_false] at hi
    rcases hi with rfl | rfl | rfl | rfl | rfl | rfl | rfl | rfl
    · exact onDev_next rfl (ends _)
    · show execSmIdent ok s = _
      exact onFuse_next rfl (ends _)
    · exact onDev_next rfl (ends _)
    · exact onDev_next rfl (ends _)
    · exact onDev_next rfl (ends _)
    · exact onDev_next rfl (ends _)
    · show execSmAlertClr ok v s = _
      refine onDev_next rfl ?_
      simp [ends]
    · show execSmRestart ok v s = _
      refine onDev_next rfl ?_
      simp [ends]

end Sys2Proof.Machine
end

section
/-!
PROOF. The pier mailbox of 21 (R537 to R539) and the work of its commands.
-/

namespace Sys2Proof.Machine

/-! ### A write of PIER.MBOX_CMD (R537 to R539) -/

/-- The module as the pier takes a command, MBOX_DONE and OVERRUN cleared. -/
def mboxStarted (d : Dev) : Dev := { d with pier := { d.pier with done := false, overrun := false } }

theorem mboxWrite_taken {code : Nat} {s : State} (hopen : mboxOpen s.dev = true) (hidle : s.dev.pier.busy = none)
    (htaken : mboxTakes code s.dev = true) (sweep : List Byte) :
    mboxWrite code sweep s = { s with
      fuse := mboxFuse code s.fuse s.dev
      dev := mboxWaits code (mboxRun code sweep s.fuse (mboxStarted s.dev)) } := by
  simp [mboxWrite, mboxDev, hopen, hidle, htaken, mboxStarted]

theorem mboxWrite_rejected {code : Nat} {s : State} (hopen : mboxOpen s.dev = true) (hidle : s.dev.pier.busy = none)
    (hrejected : mboxTakes code s.dev = false) (sweep : List Byte) :
    mboxWrite code sweep s = { s with
      dev := mboxWaits code
        (answer (if s.dev.pwr.phase = .configHold then mboxRefused else mboxBadCmd) (mboxStarted s.dev)) } := by
  simp [mboxWrite, mboxDev, hopen, hidle, hrejected, mboxStarted]

theorem mboxWrite_overruns {code : Nat} {s : State} (hopen : mboxOpen s.dev = true) (hbusy : s.dev.pier.busy ≠ none)
    (sweep : List Byte) :
    mboxWrite code sweep s = { s with dev := { s.dev with pier := { s.dev.pier with overrun := true } } } := by
  have hsome : s.dev.pier.busy.isSome = true := Option.isSome_iff_ne_none.2 hbusy
  have hnone : s.dev.pier.busy.isNone = false := Option.isNone_eq_false_iff.2 hsome
  simp [mboxWrite, mboxDev, mboxTakes, hopen, hsome, hnone]

/-! ### The end of a command -/

/-- A command that waits for its scan does not end. -/
theorem mboxEnds_scanning {d : Dev} {code result len core : Nat} (hbusy : d.pier.busy = some (code, result, len))
    (hcode : code = 0x0A ∨ code = 0x0B) (hscan : d.pier.scan = some (core, true)) : mboxEnds d = d := by
  unfold mboxEnds
  rcases hcode with rfl | rfl <;> simp [hscan, hbusy]

/-- A command that waits for its hang record does not end. -/
theorem mboxEnds_taking {d : Dev} {len : Nat} {h : HangRec} (hbusy : d.pier.busy = some (0x0D, mboxOk, len))
    (hhang : d.pier.hangBusy = some h) (hcause : h.cause = 0) : mboxEnds d = d := by
  unfold mboxEnds
  simp [hhang, hbusy, hcause]

theorem mboxEnds_finishes {d : Dev} (hscan : d.pier.scan = none) (hhang : d.pier.hangBusy = none) :
    mboxEnds d = mboxFinish d := by
  unfold mboxEnds
  simp [hscan, hhang]

/-- Settles O45, from the ways in which a write of the command register and a command end. -/
theorem mailboxEnds : Obligations.MailboxEnds := by
  intro s hopen
  refine ⟨fun code hidle hunknown hphase => ?_, fun code hidle hnot hphase => ?_, fun code hbusy => ?_,
    fun code result len hbusy hwaits => ?_, fun code result len hbusy hscan hhang => ?_⟩
  · have hrejected : mboxTakes code s.dev = false := by simp [mboxTakes, hunknown]
    refine congrArg Host.Outcome.next ((mboxWrite_rejected hopen hidle hrejected []).trans ?_)
    rw [if_neg hphase]
    rfl
  · have hrejected : mboxTakes code s.dev = false := by simp [mboxTakes, hphase, hnot]
    refine congrArg Host.Outcome.next ((mboxWrite_rejected hopen hidle hrejected []).trans ?_)
    rw [if_pos hphase]
    rfl
  · exact congrArg Host.Outcome.next (mboxWrite_overruns hopen hbusy [])
  · refine onDev_next (d := s.dev) rfl ?_
    rcases hwaits with ⟨hcode, core, hscan⟩ | ⟨rfl, rfl, h, hhang, hcause⟩
    · exact mboxEnds_scanning hbusy hcode hscan
    · exact mboxEnds_taking hbusy hhang hcause
  · refine onDev_next rfl ((mboxEnds_finishes hscan hhang).trans ?_)
    unfold mboxFinish
    rw [hbusy]

/-! ### Image loads (R463) -/

theorem imgBegin_begins {f : Fuse} {d : Dev} {h : List Byte} {kind : Nat} (hh : h = mboxIn d 128) (hk : kind = imgKind h)
    (hkind : kind = 1 ∨ kind = 2) (hidle : d.pier.img = none) (hform : imgForm kind h = true)
    (hsig : imgSig f d.flash.ownerKey kind h = true) (howner : kind = 2 → ownerKeyOk f d.flash.ownerKey = true)
    (hsvn : rbCounter f kind ≤ imgSvn h) :
    imgBegin f d = answer 0 { d with
      flash := setSlot kind { header := h } d.flash, pier := { d.pier with img := some (kind, h, 0) } } := by
  subst hh
  have hknown : ([1, 2].contains kind && imgForm kind (mboxIn d 128)) = true := by
    rcases hkind with rfl | rfl <;> simp [hform]
  have hkey : (kind == 2 && !ownerKeyOk f d.flash.ownerKey) = false := by
    rcases hkind with rfl | rfl <;> simp [howner]
  unfold imgBegin
  simp only [← hk, hidle, hknown, hkey, hsig, not_lt.2 hsvn, Option.isSome_none, Bool.not_true, Bool.or_false,
    Bool.false_eq_true, ite_false]
  rfl

theorem imgData_appends {d : Dev} {kind : Nat} {h : List Byte} (himg : d.pier.img = some (kind, h, d.pier.arg0))
    (hsize : d.pier.arg1 ≤ 65536) (hlength : d.pier.arg0 + d.pier.arg1 ≤ imgLength h) :
    imgData d = answer 0 { d with
      flash := setSlot kind { slotOf d.flash kind with
        body := (slotOf d.flash kind).body ++ mboxIn d d.pier.arg1 } d.flash
      pier := { d.pier with img := some (kind, h, d.pier.arg0 + d.pier.arg1) } } := by
  have hfits : ¬ (65536 < d.pier.arg1 ∨ imgLength h < d.pier.arg0 + d.pier.arg1) := by omega
  unfold imgData
  simp only [himg, hfits, ne_eq, not_true_eq_false, ite_false]
  rfl

theorem imgCommit_commits {f : Fuse} {d : Dev} {kind n : Nat} {h : List Byte} (himg : d.pier.img = some (kind, h, n))
    (hsig : imgSig f d.flash.ownerKey kind (slotOf d.flash kind).header = true)
    (hdigest : imgDigest h (slotOf d.flash kind).body = true) :
    imgCommit f d = answer 0 { d with pier := { d.pier with img := none } } := by
  unfold imgCommit
  simp only [himg, hsig, hdigest, Bool.and_self, ite_true]
  rfl

/-! ### Fuses (R459, R461) -/

theorem ownerEnrol_enrols {f : Fuse} (h : f.ownerDigest = none) (d : Dev) :
    ownerEnrol f d = answer 0 { d with flash := { d.flash with ownerKey := mboxIn d 64 } } := by
  simp [ownerEnrol, enrols, h, mboxOk]

/-- The counter of a kind and the security version that runs. -/
theorem advanced_eq_max {f : Fuse} {d : Dev} {kind old new : Nat}
    (h : (kind = 1 ∧ old = f.rbFirmware ∧ new = imgSvn d.run.fwHeader)
      ∨ (kind = 2 ∧ old = f.rbConfig ∧ new = imgSvn d.run.optHeader)) :
    rbCounter f kind = old ∧ advanced f d kind = max old new := by
  rcases h with ⟨rfl, rfl, rfl⟩ | ⟨rfl, rfl, rfl⟩ <;> exact ⟨rfl, rfl⟩

/-- ROLLBACK_ADVANCE raises its record where the counter advances, and only there. -/
theorem rollbackAdvance_eq {f : Fuse} {d : Dev} {kind old new : Nat} (harg : d.pier.arg0 = kind)
    (h : (kind = 1 ∧ old = f.rbFirmware ∧ new = imgSvn d.run.fwHeader)
      ∨ (kind = 2 ∧ old = f.rbConfig ∧ new = imgSvn d.run.optHeader)) :
    rollbackAdvance f d = if max old new = old then answer 0 d
      else answer 0 (raiseFields rollbackCls unitPier none [(kind, 8), (old, 8), (max old new, 8)] d) := by
  obtain ⟨hold, hnew⟩ := advanced_eq_max h
  have hkind : ¬ (kind ≠ 1 ∧ kind ≠ 2) := by omega
  unfold rollbackAdvance
  simp only [harg, hold, hnew, hkind, ite_false]
  rfl

theorem mboxFuse_rollback {f : Fuse} {d : Dev} {kind old new : Nat} (harg : d.pier.arg0 = kind)
    (h : (kind = 1 ∧ old = f.rbFirmware ∧ new = imgSvn d.run.fwHeader)
      ∨ (kind = 2 ∧ old = f.rbConfig ∧ new = imgSvn d.run.optHeader)) :
    mboxFuse 0x06 f d =
      if kind = 1 then { f with rbFirmware := max old new } else { f with rbConfig := max old new } := by
  obtain ⟨-, hnew⟩ := advanced_eq_max h
  unfold mboxFuse
  rcases h with ⟨rfl, -⟩ | ⟨rfl, -⟩ <;> simp [harg, hnew]

/-! ### Debug unlock and removal (R468 to R470, R473) -/

/-- A raised record changes the error unit and the attention unit alone. -/
theorem raiseRec_memories (r : ErrRec) (d : Dev) :
    (raiseRec r d).hbm = d.hbm ∧ (raiseRec r d).bench = d.bench ∧ (raiseRec r d).joist = d.joist
      ∧ (raiseRec r d).deck = d.deck := by
  have key : ∀ (l : List Nat) (e : Dev), (l.foldl (fun d i => attnSet i d) e).hbm = e.hbm
      ∧ (l.foldl (fun d i => attnSet i d) e).bench = e.bench ∧ (l.foldl (fun d i => attnSet i d) e).joist = e.joist
      ∧ (l.foldl (fun d i => attnSet i d) e).deck = e.deck := by
    intro l
    induction l with
    | nil => exact fun e => ⟨rfl, rfl, rfl, rfl⟩
    | cons i l ih =>
      intro e
      have hset : (attnSet i e).hbm = e.hbm ∧ (attnSet i e).bench = e.bench ∧ (attnSet i e).joist = e.joist
          ∧ (attnSet i e).deck = e.deck := by
        unfold attnSet
        dsimp only
        split <;> exact ⟨rfl, rfl, rfl, rfl⟩
      simpa only [List.foldl_cons, hset] using ih (attnSet i e)
  exact key _ _

/-- A token that unlocks sets its level, above 1 with every memory zeroed. -/
theorem dbgUnlock_unlocks {f : Fuse} {d : Dev} (htoken : tokenOk f d (mboxIn d 96) = true) :
    ∃ e, dbgUnlock f d = answer 0 e ∧ e.pier.debug = bitsOf (leAt (mboxIn d 96) 0x18 1) 1 0
      ∧ (2 ≤ e.pier.debug → e.hbm = [] ∧ e.bench = [] ∧ e.joist = [] ∧ e.deck.lines = []) := by
  unfold dbgUnlock
  simp only [htoken, Bool.not_true, Bool.false_eq_true, ite_false]
  refine ⟨_, rfl, ?_, fun hlevel => ?_⟩
  · exact congrArg Pier.debug (raiseRec_kept _ _).pier
  · obtain ⟨hhbm, hbench, hjoist, hdeck⟩ := raiseRec_memories _ _
    rw [(raiseRec_kept _ _).pier] at hlevel
    rw [hhbm, hbench, hjoist, hdeck, if_pos hlevel]
    exact ⟨rfl, rfl, rfl, rfl⟩

/-- A module without contexts is quiesced. -/
theorem quiesce_quiesces {d : Dev} (h : ctxExists d = false) :
    ∃ e, quiesce d = answer 0 e ∧ e.pwr.phase = .quiesced ∧ e.pier.removeReady = true ∧ e.hostp.link = false := by
  unfold quiesce
  rw [h]
  exact ⟨_, rfl, rfl, congrArg Pier.removeReady (attnSet_kept _ _).pier, rfl⟩

/-! ### Margining (R254, R255) -/

/-- A free result of a pin at a step, from two drawn numbers: the lowest passing delay step, with 33 where none passes, and
the highest. -/
theorem marginPairOk_free (a b : Nat) (hpass : ((a % 66 : Nat) : Int) - 32 ≠ 33) :
    marginPairOk (BitVec.ofInt 8 (((a % 66 : Nat) : Int) - 32))
      (BitVec.ofInt 8 ((((a % 66 : Nat) : Int) - 32) + (b % (33 - (((a % 66 : Nat) : Int) - 32)).toNat : Nat))) = true := by
  have hlo : (a % 66 : Nat) < 66 := Nat.mod_lt _ (by omega)
  generalize a % 66 = x at *
  have hhi : b % (33 - ((x : Int) - 32)).toNat < (33 - ((x : Int) - 32)).toNat := Nat.mod_lt _ (by omega)
  generalize b % (33 - ((x : Int) - 32)).toNat = y at *
  have hloInt : (BitVec.ofInt 8 ((x : Int) - 32)).toInt = (x : Int) - 32 := by
    rw [BitVec.toInt_ofInt]
    exact Int.bmod_eq_of_le (by omega) (by omega)
  have hhiInt : (BitVec.ofInt 8 ((x : Int) - 32 + y)).toInt = (x : Int) - 32 + y := by
    rw [BitVec.toInt_ofInt]
    exact Int.bmod_eq_of_le (by omega) (by omega)
  have hfirst : -32 ≤ (x : Int) - 32 := by omega
  have horder : (x : Int) - 32 ≤ (x : Int) - 32 + y := by omega
  have hlast : (x : Int) - 32 + y ≤ 32 := by omega
  unfold marginPairOk
  simp only [hloInt, hhiInt, hfirst, horder, hlast, decide_true, Bool.and_self, Bool.or_true]

/-- A pair that the sweep names well stands first in the results. -/
theorem marginPairs_given {lo hi : Byte} (hok : marginPairOk lo hi = true) (n : Nat) (bs : List Byte) (d : Dev) :
    marginPairs (n + 1) (lo :: hi :: bs) d = (lo :: hi :: (marginPairs n bs d).1, (marginPairs n bs d).2) := by
  simp [marginPairs, hok]

/-- The free result of a pin at a step. -/
def marginFree (d : Dev) : List Byte :=
  let lo : Int := ((drawNat d).1 % 66 : Nat) - 32
  if lo = 33 then [0x7F, 0x7F]
  else [BitVec.ofInt 8 lo, BitVec.ofInt 8 (lo + ((drawNat (drawNat d).2).1 % (33 - lo).toNat : Nat))]

theorem marginFree_good (d : Dev) : ∃ lo hi, marginFree d = [lo, hi] ∧ marginPairOk lo hi = true := by
  unfold marginFree
  dsimp only
  split
  · exact ⟨_, _, rfl, rfl⟩
  · next hpass => exact ⟨_, _, rfl, marginPairOk_free _ _ hpass⟩

/-- Where the sweep names no good pair a free one stands first. -/
theorem marginPairs_free {bs : List Byte} (h : ∀ lo hi rest, bs = lo :: hi :: rest → marginPairOk lo hi = false)
    (n : Nat) (d : Dev) :
    marginPairs (n + 1) bs d = (marginFree d ++ (marginPairs n (bs.drop 2) (drawNat (drawNat d).2).2).1,
      (marginPairs n (bs.drop 2) (drawNat (drawNat d).2).2).2) := by
  match bs, h with
  | [], _ => rfl
  | [_], _ => rfl
  | lo :: hi :: rest, h => simp [marginPairs, marginFree, h lo hi rest rfl]

/-- The results begin with one good pair, given or free. -/
theorem marginPairs_succ (n : Nat) (bs : List Byte) (d : Dev) :
    ∃ lo hi e, marginPairOk lo hi = true ∧
      marginPairs (n + 1) bs d = (lo :: hi :: (marginPairs n (bs.drop 2) e).1, (marginPairs n (bs.drop 2) e).2) := by
  by_cases hfree : ∀ lo hi rest, bs = lo :: hi :: rest → marginPairOk lo hi = false
  · obtain ⟨lo, hi, hpair, hok⟩ := marginFree_good d
    exact ⟨lo, hi, _, hok, by rw [marginPairs_free hfree, hpair]; rfl⟩
  · push Not at hfree
    obtain ⟨lo, hi, rest, rfl, hok⟩ := hfree
    exact ⟨lo, hi, d, by simpa using hok, marginPairs_given (by simpa using hok) n rest d⟩

theorem marginPairs_length (n : Nat) (bs : List Byte) (d : Dev) : (marginPairs n bs d).1.length = 2 * n := by
  induction n generalizing bs d with
  | zero => rfl
  | succ n ih =>
    obtain ⟨lo, hi, e, -, heq⟩ := marginPairs_succ n bs d
    simp [heq, ih, Nat.mul_succ]

theorem marginPairs_good (n : Nat) (bs : List Byte) (d : Dev) :
    ∀ k < n, marginPairOk ((marginPairs n bs d).1.getD (2 * k) 0) ((marginPairs n bs d).1.getD (2 * k + 1) 0) = true := by
  induction n generalizing bs d with
  | zero => exact fun k hk => absurd hk (Nat.not_lt_zero k)
  | succ n ih =>
    intro k hk
    obtain ⟨lo, hi, e, hok, heq⟩ := marginPairs_succ n bs d
    rw [heq]
    cases k with
    | zero => exact hok
    | succ k => exact ih (bs.drop 2) e k (by omega)

/-- A whole sweep of good pairs is the result. -/
theorem marginPairs_sweep (n : Nat) (sweep : List Byte) (d : Dev) (hlength : sweep.length = 2 * n)
    (hgood : ∀ k < n, marginPairOk (sweep.getD (2 * k) 0) (sweep.getD (2 * k + 1) 0) = true) :
    marginPairs n sweep d = (sweep, d) := by
  induction n generalizing sweep with
  | zero => rw [List.eq_nil_of_length_eq_zero hlength]; rfl
  | succ n ih =>
    obtain _ | ⟨lo, _ | ⟨hi, rest⟩⟩ := sweep
    · simp at hlength
    · simp at hlength; omega
    · have hfirst : marginPairOk lo hi = true := hgood 0 (by omega)
      rw [marginPairs_given hfirst, ih rest (by simp at hlength; omega) (fun k hk => hgood (k + 1) (by omega))]

/-- A margin request that is admitted measures every named pin at every step. -/
theorem marginRun_measures {d : Dev} {a pins n : Nat} {lo hi : Int} (ha : a = d.pier.arg0)
    (hlo : lo = ofTwos 5 (bitsOf a 21 17)) (hhi : hi = ofTwos 5 (bitsOf a 26 22))
    (hpins : marginPins (bitsOf a 4 3) (bitsOf a 15 5) = some pins)
    (htest : d.hbmc.testMode.getLsbD (bitsOf a 2 0) = true) (hmin : -10 ≤ lo) (horder : lo ≤ hi) (hmax : hi ≤ 10)
    (hfew : 65536 ≤ d.pier.arg1) (hmany : d.pier.arg1 ≤ 2 ^ 32) (hn : n = pins * (hi - lo + 1).toNat)
    (sweep : List Byte) :
    marginRun sweep d = answerWith (marginPairs n sweep d).1 (marginPairs n sweep d).2 := by
  subst ha hlo hhi hn
  unfold marginRun
  simp only [hpins, htest, decide_eq_false (not_lt.2 hmin), decide_eq_false (not_lt.2 horder),
    decide_eq_false (not_lt.2 hmax), decide_eq_false (not_lt.2 hfew), decide_eq_false (not_lt.2 hmany), Bool.not_true,
    Bool.or_false, Bool.false_eq_true, ite_false]

/-! ### The other commands -/

/-- A mailbox row writes its code, which R538 lists. -/
theorem mailboxRow_exec {i : Instr} {code : Nat} {sweep : List Byte} (h : mailboxRow i = some (code, sweep)) (s : State) :
    exec i s = .next (mboxWrite code sweep s) ∧ mboxKnown code = true := by
  unfold mailboxRow at h
  split at h <;> cases h <;> exact ⟨rfl, rfl⟩

theorem scanNext_begins {f : Fuse} {d : Dev} {c : Nat} (hidle : d.pier.scan = none) (hnext : nextScan f d = some c) :
    scanNext f d = answerWith (leBytes 8 c) { saveSection (fun s => { s with scanPtr := c }) d with
      pier := { (saveSection (fun s => { s with scanPtr := c }) d).pier with scan := some (c, true) } } := by
  simp [scanNext, hidle, hnext]

theorem scanCore_begins {f : Fuse} {d : Dev} (hidle : d.pier.scan = none) (hcore : scannable f d d.pier.arg0 = true) :
    scanCore f d = answer 0 { d with pier := { d.pier with scan := some (d.pier.arg0, true) } } := by
  simp [scanCore, hidle, hcore, mboxOk]

theorem scanStatus_answers {f : Fuse} {d : Dev} {t : Nat} (hcore : f.harvest.getLsbD d.pier.arg0 = true)
    (ht : t = mapGet 0 d.pier.scanTimes d.pier.arg0) :
    scanStatus f d = answerWith (leBytes 8 (t / 65536) ++ leBytes 8 (t % 65536)) d := by
  simp [scanStatus, hcore, ht]

theorem hangTake_takes {d : Dev} (hfree : hangFree d = true) : hangTake d = answer 0 (hangTrigger 0 0 d) := by
  simp [hangTake, hfree, mboxOk]

theorem hangRead_answers {d : Dev} {h : HangRec} (hrecord : d.pier.hang = some h) (hsize : d.pier.arg1 ≤ 65536) :
    hangRead d = answerWith (((hangBytes d.pier.hangMissed h).drop d.pier.arg0).take d.pier.arg1) d := by
  simp only [hangRead, hrecord, not_lt.2 hsize, ite_false]

theorem traceRead_answers {f : Fuse} {d : Dev} (hlevel : d.pier.debug ≠ 0) (hcore : f.harvest.getLsbD d.pier.arg0 = true) :
    traceRead f d = answerWith (leBytes 8 0
      ++ ((((coreAt d d.pier.arg0).trace.reverse).drop (d.pier.arg1 / 64)).take 1023).flatMap traceBytes) d := by
  simp [traceRead, hlevel, hcore]

theorem mapoutClear_clears {d : Dev} (hkept : d.hbmc.overflow.getLsbD d.pier.arg0 = false)
    (hlisted : d.run.sec.mapout.getLsbD d.pier.arg0 = true) :
    mapoutClear d =
      answer 0 (saveSection (fun s => { s with cleared := s.cleared ||| BitVec.twoPow 128 d.pier.arg0 }) d) := by
  simp only [mapoutClear, hkept, hlisted, Bool.false_eq_true, ite_false, ite_true]
  rfl

theorem hbmTest_enters {d : Dev} (hstack : d.pier.arg0 < 8) (hcontexts : ctxExists d = false)
    (hready : d.pwr.phase = .ready) (henter : bitOf d.pier.arg1 0 = true) :
    hbmTest d = answer 0 { d with
      hbmc := { d.hbmc with testMode := d.hbmc.testMode ||| BitVec.twoPow 8 d.pier.arg0 } } := by
  simp [hbmTest, not_le.2 hstack, hcontexts, hready, henter, mboxOk]

/-- Settles O44, from the work of each command. -/
theorem mailboxCommandsRun : Obligations.MailboxCommandsRun := by
  intro s d hd hopen hidle
  refine ⟨?row, ?imgBegin, ?imgData, ?imgCommit, rfl, ?enrol, ?rollback, ?nonce, dbgUnlock_unlocks, quiesce_quiesces,
    ?scanNext, scanCore_begins, fun t => scanStatus_answers, hangTake_takes, fun h => hangRead_answers, rfl,
    traceRead_answers, mapoutClear_clears, hbmTest_enters, ?margin⟩
  case row =>
    intro i code sweep a hrow ha hadmitted
    obtain ⟨hexec, hknown⟩ := mailboxRow_exec hrow s
    have htaken : mboxTakes code s.dev = true := by
      by_cases hphase : s.dev.pwr.phase = .configHold
      · simp [mboxTakes, hopen, hidle, hknown, hadmitted hphase]
      · simp [mboxTakes, hopen, hidle, hknown, hphase]
    rw [hexec, mboxWrite_taken hopen hidle htaken]
    subst ha hd
    rfl
  case imgBegin =>
    intro h kind hh hk hkind himg hform hsig howner hsvn
    exact imgBegin_begins hh hk hkind himg hform hsig howner hsvn
  case imgData =>
    intro kind h himg hsize hlength
    exact imgData_appends himg hsize hlength
  case imgCommit =>
    intro kind h n himg hsig hdigest
    exact imgCommit_commits himg hsig hdigest
  case enrol =>
    exact fun hnone => ⟨ownerEnrol_enrols hnone d, by simp [mboxFuse, enrols, hnone]⟩
  case rollback =>
    subst hd
    intro kind old new harg hcounter
    have hrun := rollbackAdvance_eq harg hcounter
    have hfuse : mboxFuse 0x06 s.fuse s.dev = _ := mboxFuse_rollback harg hcounter
    refine ⟨fun hnot => ?_, fun hadvance => ?_⟩
    · rw [max_eq_left hnot] at hrun hfuse
      refine ⟨hrun.trans (if_pos rfl), hfuse.trans ?_⟩
      rcases hcounter with ⟨rfl, rfl, -⟩ | ⟨rfl, rfl, -⟩ <;> rfl
    · rw [max_eq_right hadvance.le] at hrun hfuse
      exact ⟨hrun.trans (if_neg hadvance.ne'), hfuse⟩
  case nonce =>
    intro e n hdrawn
    obtain ⟨rfl, rfl⟩ := Prod.mk.inj hdrawn
    rfl
  case scanNext =>
    intro c hnone hnext e he
    subst he
    exact scanNext_begins hnone hnext
  case margin =>
    intro sweep a lo hi pins n ha hlo hhi hpins htest hmin horder hmax hfew hmany hn
    have hrun := marginRun_measures ha hlo hhi hpins htest hmin horder hmax hfew hmany hn sweep
    refine ⟨⟨_, _, hrun, marginPairs_length n sweep d, marginPairs_good n sweep d⟩, fun hlength hgood => ?_⟩
    refine hrun.trans ?_
    rw [marginPairs_sweep n sweep d hlength hgood]

end Sys2Proof.Machine
end

section
/-!
PROOF. Resets, scans and hang records of 18 and 19 (R455, R462, R488 to R504, R529, R530).
-/

namespace Sys2Proof.Machine

/-! ### Writes of RST (R529, R530) -/

theorem rstWrite_starts {domain : Nat} {index : BitVec 16} {f : Fuse} {d : Dev} (hopen : regsOpen d = true)
    (hok : rstIndexOk f domain index.toNat = true) :
    rstWrite domain index f d = startReset domain index.toNat true d := by
  simp [rstWrite, hopen, hok]

theorem rstWrite_unknown {domain : Nat} {index : BitVec 16} {f : Fuse} (hok : rstIndexOk f domain index.toNat = false)
    (d : Dev) : rstWrite domain index f d = d := by
  simp [rstWrite, hok]

/-- A write of RST for the module, whose one unit is 0. -/
theorem rstWrite_module (f : Fuse) {d : Dev} (hopen : regsOpen d = true) : rstWrite 4 0 f d = moduleReset true d :=
  rstWrite_starts hopen rfl

/-- A row of RST below the module writes its domain. -/
theorem rstRow_exec {i : Instr} {domain : Nat} {index : BitVec 16}
    (h : (i = .rstEngine index ∧ domain = 1) ∨ (i = .rstCore index ∧ domain = 2)
      ∨ (i = .rstCluster index ∧ domain = 3)) (s : State) :
    exec i s = .next { s with dev := rstWrite domain index s.fuse s.dev } := by
  rcases h with ⟨rfl, rfl⟩ | ⟨rfl, rfl⟩ | ⟨rfl, rfl⟩ <;> rfl

/-! ### The end of a reset, and a missed bound (R498, R500) -/

theorem resetEnds_done {unit : Nat} {d : Dev} {j : RstJob}
    (hfind : d.resets.find? (fun j => j.unit.toNat == unit && j.domain != 5 && j.domain != 7) = some j)
    (hover : j.domain < 4 ∨ d.pwr.phase = .ready) :
    resetEnds unit d =
      raise resetDoneCls unit none 0 0 { d with resets := d.resets.filter (fun x => x != j) } := by
  have hends : (decide (j.domain < 4) || d.pwr.phase == .ready) = true := by simpa using hover
  unfold resetEnds
  simp only [hfind, hends, ite_true]

theorem resetLate_escalates {unit : Nat} {d e : Dev} {j : RstJob}
    (hfind : d.resets.find? (fun j => j.unit.toNat == unit && j.domain != 5 && j.domain != 7) = some j)
    (hbound : j.since + rstBound j.domain ≤ nowNs d)
    (hstart : 4 ≤ j.domain → d.pwr.phase ≠ .ready ∧ d.pwr.mrstLow = false)
    (he : e = { d with resets := d.resets.filter (fun x => x != j) }) :
    resetLate unit d =
      escalate j (raiseRec { cls := resetEscalateCls, kind := 3, unit := unit, trig := hangFree e } e) := by
  subst he
  have hlate : (decide (j.since + rstBound j.domain ≤ nowNs d)
      && !(decide (4 ≤ j.domain) && (d.pwr.phase == .ready || d.pwr.mrstLow))) = true := by
    by_cases hmodule : 4 ≤ j.domain
    · simp [hbound, hstart hmodule]
    · simp [hbound, hmodule]
  unfold resetLate
  simp only [hfind, hlate, ite_true]

/-! ### Unanswered accesses and the pier's restart (R489, R497) -/

/-- What an unanswered access leaves at the bench line that it should fill. -/
def benchLost (bench : Option (Nat × Nat)) (write : Bool) (d : Dev) : Dev :=
  match bench with
  | some (c, a) => if write then d else benchPoison c (lineOf a) 64 d
  | none => d

/-- What it leaves at the deck line that it should fill. -/
def lineLost (line : Option Nat) (write : Bool) (d : Dev) : Dev :=
  match line with
  | some l =>
    if write || deckHolds d false (lineOf l) then d
    else fillPoison false (lineOf l) (deckTake false (lineOf l) false d)
  | none => d

/-- What it leaves at the channel that made it. -/
def chanLost (chan : Option Nat) (d : Dev) : Dev :=
  match chan with
  | some m => (match chanOwner d m, (chanAt d m).run with
    | some x, some r => if r.halted || r.retryAt.isSome then d else dvBusError m x d
    | _, _ => d)
  | none => d

theorem benchLost_eq (bench : Option (Nat × Nat)) (write : Bool) (d : Dev) :
    benchLost bench write d =
      if write then d else bench.elim d (fun b => benchPoison b.1 (lineOf b.2) 64 d) := by
  cases bench <;> cases write <;> rfl

theorem lineLost_eq (line : Option Nat) (write : Bool) (d : Dev) :
    lineLost line write d =
      if write then d else line.elim d (fun l => if deckHolds d false (lineOf l) then d
        else fillPoison false (lineOf l) (deckTake false (lineOf l) false d)) := by
  cases line <;> cases write <;> simp [lineLost]

theorem chanLost_eq (chan : Option Nat) (d : Dev) :
    chanLost chan d = chan.elim d (fun m => (chanOwner d m).elim d (fun x => (chanAt d m).run.elim d (fun r =>
      if r.halted || r.retryAt.isSome then d else dvBusError m x d))) := by
  rcases chan with _ | m
  · rfl
  · unfold chanLost
    dsimp only [Option.elim_some]
    cases chanOwner d m <;> cases (chanAt d m).run <;> rfl

/-- An access without an answer leaves what it should fill as poison, and its silent unit is contained. -/
theorem accessLost_contains {d : Dev} (hready : d.pwr.phase = .ready) (silent : Nat) (ctx : Option Nat)
    (bench : Option (Nat × Nat)) (line chan : Option Nat) (write : Bool) :
    accessLost silent ctx bench line chan write d = contain silent (raise engineFault silent ctx 0 0
      (chanLost chan (lineLost line write (benchLost bench write d)))) :=
  if_neg (by simp [hready])

theorem pierRestarts_ends {d e : Dev} (hruns : pierRuns d = true)
    (he : e = raise pierReset unitPier none 0 0 (mboxFinish { d with
      pier := { d.pier with busy := d.pier.busy.map (fun b => (b.1, 1, 0)), hangBusy := none, scan := none } })) :
    pierRestarts d = if d.resets.any (fun j => j.domain == 7) then moduleReset false e else e := by
  subst he
  simp [pierRestarts, hruns]

/-- Settles O46, from the rule of each event. -/
theorem resetsAct : Obligations.ResetsAct := by
  intro s
  refine ⟨fun hopen => ⟨fun i domain index hrow => ⟨fun hok => ?_, fun hok => ?_⟩, ?_, ?_⟩,
    fun unit j hunit hfind => ⟨fun hover => ?_, fun hbound hstart d hd => ?_⟩, ?_, ?_, fun hruns d hd => ?_⟩
  · rw [rstRow_exec hrow, rstWrite_starts hopen hok]
  · rw [rstRow_exec hrow, rstWrite_unknown hok]
  · show execRstModule s = _
    exact onFuse_next rfl (rstWrite_module s.fuse hopen)
  · show execRstHoldNext s = _
    refine onFuse_next rfl ?_
    rw [if_pos hopen]
    exact rstWrite_module s.fuse hopen
  · show execResetDone unit s = _
    refine onDev_next hunit ?_
    rw [resetEnds_done hfind hover]
  · exact onDev_next hunit (resetLate_escalates hfind hbound hstart hd)
  · rintro ⟨j, hj, hdomain⟩
    show execRailCycle s = _
    exact onDev_next rfl (if_pos (List.any_eq_true.2 ⟨j, hj, by simp [hdomain]⟩))
  · intro unit silent ctx bench line chan write d d2 d3 hunit hsilent hbench hchan hready hd hd2 hd3
    rw [← benchLost_eq] at hd
    rw [← lineLost_eq, hd] at hd2
    rw [← chanLost_eq, hd2] at hd3
    rw [hd3]
    refine onDev_next ?_ (accessLost_contains hready silent.toNat ctx bench line chan write)
    have hbenchKnown : (match (generalizing := false) bench with
        | some (c, a) => coreKnown c && decide (a < benchSize)
        | none => true) = true := by
      rcases bench with _ | ⟨c, a⟩
      · rfl
      · simpa [coreKnown] using hbench (c, a) rfl
    have hchanKnown : (match (generalizing := false) chan with | some m => chanKnown m | none => true) = true := by
      rcases chan with _ | m
      · rfl
      · simpa [chanKnown] using hchan m rfl
    exact Bool.and_eq_true_iff.2 ⟨Bool.and_eq_true_iff.2 ⟨by rw [hunit, hsilent]; rfl, hbenchKnown⟩, hchanKnown⟩
  · exact onDev_next rfl (pierRestarts_ends hruns hd)

/-! ### Scans (R491 to R496) -/

theorem suspectScan_begins {core : Nat} {d : Dev} (hidle : d.pier.scan = none)
    (hsuspect : (coreAt d core).out = true ∨ (d.run.sec.offline.getLsbD core = true ∧ fabricOn d = true)) :
    suspectScan core d = { d with pier := { d.pier with scan := some (core, false) } } := by
  have hscans : ((coreAt d core).out || (d.run.sec.offline.getLsbD core && fabricOn d)) = true := by
    simpa using hsuspect
  simp only [suspectScan, hidle, hscans, Option.isSome_none, Bool.not_true, Bool.or_false, Bool.false_eq_true, ite_false]

theorem scanEnds_ends {core : Nat} {host pass : Bool} {pattern : BitVec 32} {d e : Dev}
    (hscan : d.pier.scan = some (core, host)) (hlaunch : coreHoldsLaunch d core = false)
    (hheld : scanHeld d core = false) (he : e = (if pass then scanPassed core d else scanFailed core pattern d)) :
    scanEnds pass pattern d = resideAll { e with
      pier := { e.pier with
        scan := none
        busy := if host && !pass then e.pier.busy.map (fun b => (b.1, 4, b.2.2)) else e.pier.busy } } := by
  subst he
  simp only [scanEnds, hscan, hlaunch, hheld, Bool.or_self, Bool.false_eq_true, ite_false]

theorem scanEnds_waits {core : Nat} {host : Bool} {d : Dev} (hscan : d.pier.scan = some (core, host))
    (hwaits : coreHoldsLaunch d core = true ∨ scanHeld d core = true) (pass : Bool) (pattern : BitVec 32) :
    scanEnds pass pattern d = d := by
  have hheld : (coreHoldsLaunch d core || scanHeld d core) = true := Bool.or_eq_true_iff.2 hwaits
  simp only [scanEnds, hscan, hheld, ite_true]

/-! ### Hang records (R504) -/

/-- A section is added to the record alone. -/
theorem addSection_adds (h : HangRec) (d : Dev) (u : Nat) :
    (addSection h d u).2 = d ∧ (addSection h d u).1.sections.length = h.sections.length + 1 := by
  unfold addSection
  split
  · exact ⟨rfl, List.length_append⟩
  · exact ⟨rfl, List.length_append⟩

theorem addSections_add (us : List Nat) (h : HangRec) (d : Dev) :
    (us.foldl (fun r u => addSection r.1 r.2 u) (h, d)).2 = d
      ∧ (us.foldl (fun r u => addSection r.1 r.2 u) (h, d)).1.sections.length = h.sections.length + us.length := by
  induction us generalizing h with
  | nil => exact ⟨rfl, rfl⟩
  | cons u us ih =>
    obtain ⟨hdev, hlength⟩ := addSection_adds h d u
    have hstep : addSection h d u = ((addSection h d u).1, d) := Prod.ext rfl hdev
    obtain ⟨hrest, hcount⟩ := ih (addSection h d u).1
    rw [List.foldl_cons, hstep]
    refine ⟨hrest, hcount.trans ?_⟩
    rw [hlength, List.length_cons]
    omega

theorem hangDone_stores {f : Fuse} {d e : Dev} {h : HangRec} {r : HangRec × Dev} (hbusy : d.pier.hangBusy = some h)
    (hr : r = (hangUnits f).foldl (fun r u => addSection r.1 r.2 u) (h, d))
    (he : e = raise hangReady unitPier none 0 0 { d with
      pier := { d.pier with hang := some { r.1 with stop := nowNs d }, hangBusy := none } }) :
    hangDone f d = if d.resets.any (fun j => j.domain == 7) then moduleReset false e else e := by
  have hdev : r.2 = d := hr ▸ (addSections_add (hangUnits f) h d).1
  have hresets : e.resets = d.resets := by
    rw [he]
    exact (raise_kept _ _ _ _ _ _).resets
  unfold hangDone
  rw [hbusy]
  dsimp only
  rw [← hr, hdev, ← he, hresets]

/-- Settles O47, from the rule of each event. -/
theorem scansAndHangRecords : Obligations.ScansAndHangRecords := by
  intro s
  refine ⟨fun core hcore hidle hsuspect => ?_, fun core host pass pattern d hscan hlaunch hheld hd => ?_,
    fun core host pass pattern hscan hwaits => ?_, fun h r d hbusy hr hd => ?_⟩
  · exact onDev_next (decide_eq_true hcore) (suspectScan_begins hidle hsuspect)
  · exact onDev_next rfl (scanEnds_ends hscan hlaunch hheld hd)
  · exact onDev_next (d := s.dev) rfl (scanEnds_waits hscan hwaits pass pattern)
  · obtain ⟨hdev, hlength⟩ := addSections_add (hangUnits s.fuse) h s.dev
    rw [← hr] at hdev hlength
    exact ⟨hdev, hlength, onFuse_next rfl (hangDone_stores hbusy hr hd)⟩

end Sys2Proof.Machine
end

section
/-!
PROOF. The error ring of 17 and 19 (R448, R477, R484, R485) and the capture loss (R515). The summary of lost records
leaves its classes' counts to the write, which neither reads nor changes them.
-/

namespace Sys2Proof.Machine

/-! ### Writes do not see the counts of lost records -/

/-- The module with other counts of records lost since the last summary. -/
def withLostNew (l : SMap Nat) (d : Dev) : Dev := { d with err := { d.err with lostNew := l } }

/-- What neither reads nor changes those counts. -/
def LostNewUnseen (f : Dev → Dev) : Prop := ∀ l d, f (withLostNew l d) = withLostNew l (f d)

theorem LostNewUnseen.keeps {f : Dev → Dev} (h : LostNewUnseen f) (d : Dev) : (f d).err.lostNew = d.err.lostNew := by
  have hsame : f d = withLostNew d.err.lostNew (f d) := h d.err.lostNew d
  rw [hsame]
  rfl

theorem LostNewUnseen.comp {f g : Dev → Dev} (hg : LostNewUnseen g) (hf : LostNewUnseen f) :
    LostNewUnseen (fun d => g (f d)) := fun l d => (congrArg g (hf l d)).trans (hg l (f d))

theorem LostNewUnseen.ite {p : Dev → Prop} [DecidablePred p] {f g : Dev → Dev}
    (hp : ∀ l d, p (withLostNew l d) = p d) (hf : LostNewUnseen f) (hg : LostNewUnseen g) :
    LostNewUnseen (fun d => if p d then f d else g d) := by
  intro l d
  by_cases h : p d
  · simp only [if_pos h, if_pos ((hp l d).mpr h), hf l d]
  · simp only [if_neg h, if_neg (fun h' => h ((hp l d).mp h')), hg l d]

theorem LostNewUnseen.foldl {α : Type} {f : α → Dev → Dev} (hf : ∀ a, LostNewUnseen (f a)) (as : List α) :
    LostNewUnseen (fun d => as.foldl (fun d a => f a d) d) := by
  induction as with
  | nil => exact fun l d => rfl
  | cons a as ih =>
    intro l d
    simp only [List.foldl_cons]
    rw [hf a l d]
    exact ih l (f a d)

theorem lostNewUnseen_id : LostNewUnseen (fun d => d) := fun _ _ => rfl

theorem attnSet_lostNewUnseen (i : Nat) : LostNewUnseen (attnSet i) :=
  LostNewUnseen.ite (fun _ _ => rfl) lostNewUnseen_id (fun _ _ => rfl)

theorem raiseHostMem_lostNewUnseen (line cause : Nat) : LostNewUnseen (raiseHostMem line cause) := fun l d =>
  LostNewUnseen.foldl attnSet_lostNewUnseen (attnOfClass hostMem) l { d with err := { d.err with
    raised := d.err.raised ++ [{ cls := hostMem, kind := kindOf hostMem, unit := unitHost, addr := line, detail := cause,
                                 kt := nowNs d % 2 ^ 64 }] } }

theorem storeRaw_lostNewUnseen (host : Bool) (pa : Nat) (bs : List Byte) : LostNewUnseen (storeRaw host pa bs) :=
  LostNewUnseen.ite (fun _ _ => rfl) (fun _ _ => rfl) (fun _ _ => rfl)

theorem markMem_lostNewUnseen (host : Bool) (line : Nat) (po : Bool) : LostNewUnseen (markMem host line po) :=
  LostNewUnseen.ite (fun _ _ => rfl) (fun _ _ => rfl) (fun _ _ => rfl)

theorem hostCleaned_lostNewUnseen (line : Nat) : LostNewUnseen (hostCleaned line) :=
  LostNewUnseen.ite (fun _ _ => rfl)
    (LostNewUnseen.ite (fun _ _ => rfl)
      ((markMem_lostNewUnseen true line false).comp (f := fun d => { d with free := d.free + 1 }) (fun _ _ => rfl))
      (fun _ _ => rfl))
    lostNewUnseen_id

theorem showUnder_lostNewUnseen (v : DeckLine) : LostNewUnseen (showUnder v) := by
  intro l d
  unfold showUnder
  cases v.under with
  | none => rfl
  | some w => exact storeRaw_lostNewUnseen v.host v.line (leBytes 64 w.toNat) l d

theorem lineBack_lostNewUnseen (v : DeckLine) : LostNewUnseen (lineBack v) :=
  LostNewUnseen.ite (fun _ _ => rfl) (showUnder_lostNewUnseen v)
    (LostNewUnseen.ite (fun _ _ => rfl)
      (LostNewUnseen.ite (fun _ _ => rfl)
        (LostNewUnseen.ite (fun _ _ => rfl) (markMem_lostNewUnseen true v.line true) (hostCleaned_lostNewUnseen v.line))
        ((raiseHostMem_lostNewUnseen v.line 2).comp (showUnder_lostNewUnseen v)))
      (LostNewUnseen.ite (fun _ _ => rfl) (fun _ _ => rfl) (markMem_lostNewUnseen false v.line v.poison)))

theorem deckEvict_lostNewUnseen (v : DeckLine) : LostNewUnseen (deckEvict v) :=
  (lineBack_lostNewUnseen v).comp (f := deckDrop v.host v.line) (fun _ _ => rfl)

/-- Giving up the line that a deck may hold does not either. -/
theorem evictHeld_lostNewUnseen (x : Option DeckLine) :
    LostNewUnseen (fun d => match x with
      | some v => deckEvict v d
      | none => d) := by
  cases x with
  | none => exact lostNewUnseen_id
  | some v => exact deckEvict_lostNewUnseen v

theorem hostPutLine_lostNewUnseen (pa : Nat) (bs : List Byte) (po : Bool) : LostNewUnseen (hostPutLine pa bs po) := by
  have hevicted : LostNewUnseen (fun d => match deckLine d true (lineOf pa) with
      | some v => deckEvict v d
      | none => d) := fun l d => evictHeld_lostNewUnseen (deckLine d true (lineOf pa)) l d
  have hstored := hevicted.comp (storeRaw_lostNewUnseen true pa bs)
  have hmarked : LostNewUnseen (fun d => if po then markMem true (lineOf pa) true d
      else if bs.length = 64 then hostCleaned (lineOf pa) d else d) :=
    LostNewUnseen.ite (fun _ _ => rfl) (markMem_lostNewUnseen true (lineOf pa) true)
      (LostNewUnseen.ite (fun _ _ => rfl) (hostCleaned_lostNewUnseen (lineOf pa)) lostNewUnseen_id)
  exact LostNewUnseen.ite (fun _ _ => rfl) (raiseHostMem_lostNewUnseen (lineOf pa) 2) (hmarked.comp hstored)

theorem hostPut_lostNewUnseen (pa : Nat) (bs : List Byte) : LostNewUnseen (hostPut pa bs) := by
  have key : ∀ n pa bs, LostNewUnseen (hostPutGo n pa bs) := by
    intro n
    induction n with
    | zero => exact fun pa bs => lostNewUnseen_id
    | succ n ih =>
      intro pa bs
      exact LostNewUnseen.ite (fun _ _ => rfl) lostNewUnseen_id ((ih _ _).comp (hostPutLine_lostNewUnseen pa _ false))
  exact key _ pa bs

theorem errSlot_lostNewUnseen (bs : Nat → List Byte) : LostNewUnseen (errSlot bs) := by
  intro l d
  unfold errSlot
  dsimp only
  rw [show hostPut ((withLostNew l d).err.base + 64 * ((withLostNew l d).err.tail.toNat % 2 ^ (withLostNew l d).err.log2))
      (bs (withLostNew l d).err.tail.toNat) (withLostNew l d) = _ from hostPut_lostNewUnseen _ _ l d]
  rfl

/-- The write of a record neither reads nor changes the counts of lost records. -/
theorem errPut_lostNewUnseen (r : ErrRec) : LostNewUnseen (errPut r) := by
  intro l d
  have hrecord := errSlot_lostNewUnseen (fun n => recordBytes d.err.rseq.toNat n d.err.log2 r)
  have hexts := LostNewUnseen.foldl (fun v => errSlot_lostNewUnseen (fun n => extBytes n d.err.log2 v)) r.exts
  have hnamed : LostNewUnseen (fun e => attnSet 1 (if r.trig then hangNamed d.err.rseq e else e)) :=
    (attnSet_lostNewUnseen 1).comp (LostNewUnseen.ite (fun _ _ => rfl) (fun _ _ => rfl) lostNewUnseen_id)
  have hcounted : LostNewUnseen (fun e => { e with err := { e.err with rseq := d.err.rseq + 1 } }) := fun _ _ => rfl
  exact (hnamed.comp (hcounted.comp (hexts.comp hrecord))) l d

/-! ### The events -/

/-- The summary of the records lost since the last. -/
def lostSummaryRec (d : Dev) : ErrRec :=
  { cls := lostSummaryCls, kind := kindOf lostSummaryCls, kt := nowNs d % 2 ^ 64,
    detail := packFields ((d.err.lostNew.take 6).flatMap (fun x => [(x.1, 16), (min x.2 65535, 16)])) }

/-- A summary takes up to six classes off the counts. -/
theorem errSummary_writes {d e : Dev} (hen : d.err.en = true) (hlink : d.hostp.link = true) (hlost : d.err.lostNew ≠ [])
    (hroom : 2 ≤ errFree d) (he : e = errPut (lostSummaryRec d) d) :
    errSummary d = { e with err := { e.err with lostNew := e.err.lostNew.drop 6 } } := by
  have hkept : e.err.lostNew = d.err.lostNew := he ▸ (errPut_lostNewUnseen _).keeps d
  have hwrites : ¬ (!d.err.en || !d.hostp.link || d.err.lostNew == [] || decide (errFree d < 2)) = true := by
    simp [hen, hlink, hlost, not_lt.2 hroom]
  have hput : errSummary d = errPut (lostSummaryRec d) (withLostNew (d.err.lostNew.drop 6) d) := by
    unfold errSummary
    rw [if_neg hwrites]
    rfl
  rw [hput, errPut_lostNewUnseen, ← he, ← hkept]
  rfl

/-- Settles O49, from the rule of each event. -/
theorem recordsReachTheirRing : Obligations.RecordsReachTheirRing := by
  intro s
  refine ⟨fun r rs d e hd hraised he => ?_, ?_, fun hen hlink hlost hroom d hd => ?_, fun hen hlost hroom d hd => ?_⟩
  · refine onDev_next rfl ?_
    unfold errNext
    dsimp only
    rw [← hd, hraised, he]
  · show execCoalesceClose s = _
    refine onDev_next rfl ?_
    unfold closeRuns
    rfl
  · exact onDev_next rfl (errSummary_writes hen hlink hlost hroom hd)
  · have hflush : (s.dev.kz.en && s.dev.kz.lostNew != 0 && kzRoom s.dev) = true := by simp [hen, hlost, hroom]
    subst hd
    exact onDev_next rfl (if_pos hflush)

end Sys2Proof.Machine
end

section
/-!
PROOF. A context fault (R487) reaches no other context. What it stops leaves power, keystone time, the fabric's tables, the
state section and every context's record as they were; the record of the faulted context is then written.
-/

namespace Sys2Proof.Machine

/-! ### What a stop leaves unchanged -/

/-- Power, keystone time, tables, state section and context records are unchanged. -/
structure StopFrame (d e : Dev) : Prop where
  pwr : e.pwr = d.pwr
  kt : e.kt = d.kt
  tab : e.tab = d.tab
  run : e.run = d.run
  ctxs : e.ctxs = d.ctxs

theorem StopFrame.refl (d : Dev) : StopFrame d d := ⟨rfl, rfl, rfl, rfl, rfl⟩

theorem StopFrame.trans {a b c : Dev} (x : StopFrame a b) (y : StopFrame b c) : StopFrame a c :=
  ⟨y.pwr.trans x.pwr, y.kt.trans x.kt, y.tab.trans x.tab, y.run.trans x.run, y.ctxs.trans x.ctxs⟩

theorem StopFrame.foldl {α : Type} {f : Dev → α → Dev} (h : ∀ d x, StopFrame d (f d x)) (l : List α) (d : Dev) :
    StopFrame d (l.foldl f d) := by
  induction l generalizing d with
  | nil => exact StopFrame.refl d
  | cons x l ih => exact (h d x).trans (ih _)

theorem Kept.stopFrame {d e : Dev} (h : Kept d e) : StopFrame d e := ⟨h.pwr, h.kt, h.tab, h.run, h.ctxs⟩

theorem StopFrame.ctxAt {d e : Dev} (h : StopFrame d e) (x : Nat) : ctxAt e x = Machine.ctxAt d x :=
  congrArg (fun m => mapGet ({} : Ctx) m x) h.ctxs

/-! ### What a fault stops: channels, Planer commands, glue-ups and launches -/

theorem dvStore_kept {unit ctx : Nat} {va : Int} {bs : List Byte} {po : Bool} {d e : Dev}
    (h : dvStore unit ctx va bs po d = .ok e) : Kept d e := by
  unfold dvStore at h
  split at h
  · cases h
  next host pa p d1 hx =>
    refine (xlate_kept hx).trans ?_
    split at h
    · cases h
      exact hostPutLine_kept pa bs po d1
    · split at h
      · cases h
      · split at h
        · cases h
        next d2 hv =>
          cases h
          exact ((deckVisitW_kept hv).trans (writeMem_kept _ _ _ _)).trans
            (Kept.ite (poisonLine_kept _ _ _) (Kept.refl _))

theorem dvMark_stopFrame (m ctx addr state err tries done : Nat) (d : Dev) :
    StopFrame d (dvMark m ctx addr state err tries done d) := by
  unfold dvMark
  dsimp only
  split
  next d' h => exact (dvStore_kept h).stopFrame
  · exact ⟨rfl, rfl, rfl, rfl, rfl⟩
  · exact StopFrame.refl d

theorem modChan_stopFrame (m : Nat) (f : Chan → Chan) (d : Dev) : StopFrame d (modChan m f d) := ⟨rfl, rfl, rfl, rfl, rfl⟩

theorem stopChannels_stopFrame (c : Nat) (d : Dev) : StopFrame d (stopChannels c d) := by
  unfold stopChannels
  refine StopFrame.foldl (fun d p => ?_) _ d
  split
  · split
    · split
      · exact StopFrame.refl d
      · exact (dvMark_stopFrame _ _ _ _ _ _ _ d).trans (modChan_stopFrame _ _ _)
    · exact modChan_stopFrame _ _ d
  · exact StopFrame.refl d

theorem gaugeFlush_kept {unit ctx : Nat} {g : GaugeDelta} {d e : Dev} (h : gaugeFlush unit ctx g d = .ok e) : Kept d e := by
  unfold gaugeFlush at h
  dsimp only at h
  split at h
  · cases h
  next bs d1 ht => exact (vTake_kept ht).trans (vWrite_kept h)

theorem withPlaners_stopFrame {d e : Dev} (h : StopFrame d e) (ps : SMap (List PlanerJob)) :
    StopFrame d { e with planers := ps } := ⟨h.pwr, h.kt, h.tab, h.run, h.ctxs⟩

theorem dropPlaner_stopFrame (c : Nat) (d : Dev) : StopFrame d (dropPlaner c d) := by
  unfold dropPlaner
  refine withPlaners_stopFrame (StopFrame.foldl (fun d p => ?_) _ d) _
  refine StopFrame.foldl (fun d j => ?_) _ d
  refine StopFrame.foldl (fun d g => ?_) _ d
  split
  next e h => exact (gaugeFlush_kept h).stopFrame
  · exact StopFrame.refl d

theorem dropGlues_stopFrame (c : Nat) (d : Dev) : StopFrame d (dropGlues c d) := ⟨rfl, rfl, rfl, rfl, rfl⟩

/-- Everything that a context runs stops before its record is written. -/
def ctxStopped (c : Nat) (d : Dev) : Dev := dropGlues c (dropPlaner c (stopChannels c (scrambleFlights c d)))

theorem ctxStopped_stopFrame (c : Nat) (d : Dev) : StopFrame d (ctxStopped c d) :=
  (((scrambleFlights_kept c d).stopFrame.trans (stopChannels_stopFrame c _)).trans (dropPlaner_stopFrame c _)).trans
    (dropGlues_stopFrame c _)

theorem pushComp_stopFrame (ring : Nat) (x : Comp) (d : Dev) : StopFrame d (pushComp ring x d) := ⟨rfl, rfl, rfl, rfl, rfl⟩

theorem failLaunches_stopFrame (c code : Nat) (d : Dev) :
    StopFrame (modCtx c (fun x => { x with launches := [] }) d) (failLaunches c code d) :=
  StopFrame.foldl (fun d l => pushComp_stopFrame l.ring (launchComp l code) d) _ _

theorem setCtxState_stopFrame (c : Nat) (st : CtxState) (d : Dev) :
    StopFrame (modCtx c (fun x => { x with state := st }) d) (setCtxState c st d) := (syncCtx_kept c _).stopFrame

/-! ### The record of the faulted context -/

/-- The class of a context's first fault stays in its record. -/
def faultNoted (cls : Nat) (x : Ctx) : Ctx :=
  { x with faultCode := if x.faultCode = 0 then cls else x.faultCode, wants := false }

/-- The record of a context that faults with a class. -/
def faultedCtx (cls : Nat) (x : Ctx) : Ctx := { faultNoted cls x with state := .faulted, launches := [] }

/-- The writes of that record. -/
def faultWritten (c cls : Nat) (d : Dev) : Dev :=
  modCtx c (fun x => { x with launches := [] }) (modCtx c (fun x => { x with state := .faulted })
    (modCtx c (faultNoted cls) d))

/-- A context fault of a context that is free or has faulted raises its record alone. -/
theorem faultCtx_again {c : Nat} {d : Dev} (h : (ctxAt d c).state = .free ∨ (ctxAt d c).state = .faulted) (r : ErrRec) :
    StopFrame d (faultCtx c r d) := by
  unfold faultCtx
  dsimp only
  rw [if_pos h]
  exact (raiseRec_kept _ d).stopFrame

/-- Beyond what it stops, a context fault writes the record of its own context. -/
theorem faultCtx_stopFrame {c : Nat} {d : Dev} (h : ¬ ((ctxAt d c).state = .free ∨ (ctxAt d c).state = .faulted))
    (r : ErrRec) :
    StopFrame (faultWritten c r.cls d) (faultCtx c r d) := by
  unfold faultCtx
  dsimp only
  rw [if_neg h]
  have hmod : ∀ (f : Ctx → Ctx) {a b : Dev}, StopFrame a b → StopFrame (modCtx c f a) (modCtx c f b) :=
    fun f a b x => ⟨x.pwr, x.kt, x.tab, x.run, congrArg (fun m => mapMod ({} : Ctx) c f m) x.ctxs⟩
  have hnoted := hmod (faultNoted r.cls) (ctxStopped_stopFrame c d)
  have hstate := (hmod _ hnoted).trans (setCtxState_stopFrame c .faulted _)
  have hlaunches := (hmod _ hstate).trans (failLaunches_stopFrame c r.cls _)
  exact hlaunches.trans ((raiseRec_kept _ _).trans (attnSet_kept 4 _)).stopFrame

/-- The record of the context after its fault. -/
theorem faultCtx_self {c : Nat} {d : Dev} (h : ¬ ((ctxAt d c).state = .free ∨ (ctxAt d c).state = .faulted))
    (r : ErrRec) : ctxAt (faultCtx c r d) c = faultedCtx r.cls (ctxAt d c) := by
  have hused : ∀ x : Ctx, x.state ≠ .free → x ≠ {} := fun x hx heq => hx (heq ▸ rfl)
  have hstate : (ctxAt d c).state ≠ .free := fun hfree => h (.inl hfree)
  rw [(faultCtx_stopFrame h r).ctxAt, faultWritten, ctxAt_modCtx_self, ctxAt_modCtx_self, ctxAt_modCtx_self]
  · rfl
  · exact hused _ hstate
  · exact hused _ (by simp)
  · exact hused _ (by rw [ctxAt_modCtx_self _ _ _ (hused _ (by simp))]; simp)

theorem faultCtx_other {c x : Nat} (hx : x ≠ c) (r : ErrRec) (d : Dev) : ctxAt (faultCtx c r d) x = ctxAt d x := by
  by_cases h : (ctxAt d c).state = .free ∨ (ctxAt d c).state = .faulted
  · exact (faultCtx_again h r).ctxAt x
  · rw [(faultCtx_stopFrame h r).ctxAt, faultWritten, ctxAt_modCtx_ne _ _ _ _ hx, ctxAt_modCtx_ne _ _ _ _ hx, ctxAt_modCtx_ne _ _ _ _ hx]

/-- Settles O55: every part of the stop keeps the frame, and the record that is written is the context's own. -/
theorem faultContained : Obligations.FaultContained := by
  rintro c r d e rfl
  refine ⟨fun x hx => faultCtx_other hx r d, fun hused => ?_, fun hused hfirst hclear => ?_, ?_⟩
  · by_cases h : (ctxAt d c).state = .faulted
    · rw [(faultCtx_again (.inr h) r).ctxAt, h]
    · rw [faultCtx_self (not_or.2 ⟨hused, h⟩)]
      rfl
  · rw [faultCtx_self (not_or.2 ⟨hused, hfirst⟩)]
    exact ⟨if_pos hclear, rfl⟩
  · by_cases h : (ctxAt d c).state = .free ∨ (ctxAt d c).state = .faulted
    · obtain ⟨hpwr, hkt, htab, hrun, -⟩ := faultCtx_again h r
      exact ⟨hpwr, hkt, htab, hrun⟩
    · obtain ⟨hpwr, hkt, htab, hrun, -⟩ := faultCtx_stopFrame h r
      exact ⟨hpwr, hkt, htab, hrun⟩

end Sys2Proof.Machine
end

section
/-!
PROOF. The SPDM responder of 18 (R464 to R467).
-/

namespace Sys2Proof.Machine

/-- A request whose earlier ones were made is carried out. -/
theorem spdmAfter_runs {ready : Dev → Bool} {d : Dev} (hlink : d.hostp.link = true) (h : ready d = true)
    (run : Dev → Dev) : spdmAfter ready run d = run d := by
  simp [spdmAfter, hlink, h]

/-- One that comes before them is unexpected. -/
theorem spdmAfter_early {ready : Dev → Bool} {d : Dev} (hlink : d.hostp.link = true) (h : ready d = false)
    (run : Dev → Dev) : spdmAfter ready run d = spdmError spdmUnexpected d := by
  simp [spdmAfter, hlink, h]

/-- The requests that need the negotiated algorithms are unexpected without them. -/
theorem spdmRequest_early {i : Instr} {s : State} (hlink : s.dev.hostp.link = true) (h : spdmReady s.dev = false)
    (hi : i = .getDigests ∨ (∃ a b c, i = .getCertificate a b c) ∨ (∃ a n, i = .challenge a n)
      ∨ (∃ a b n, i = .getMeasurements a b n) ∨ (∃ a x, i = .setCertificate a x)
      ∨ (∃ a b l x, i = .chunkSend a b l x) ∨ (∃ a b, i = .chunkGet a b)) :
    exec i s = .next { s with dev := spdmError spdmUnexpected s.dev } := by
  have early := spdmAfter_early hlink h
  rcases hi with rfl | ⟨a, b, c, rfl⟩ | ⟨a, n, rfl⟩ | ⟨a, b, n, rfl⟩ | ⟨a, x, rfl⟩ | ⟨a, b, l, x, rfl⟩ | ⟨a, b, rfl⟩
  · exact onDev_next rfl (early _)
  · exact onDev_next rfl (early _)
  · show execChallenge a n s = _
    exact onFuse_next rfl (early _)
  · show execGetMeasurements a b n s = _
    exact onFuse_next rfl (early _)
  · exact onDev_next rfl (early _)
  · exact onDev_next rfl (early _)
  · exact onDev_next rfl (early _)

/-! ### Answers from the chains and the measured state -/

theorem execGetCertificate_answers {s : State} {slot offset : Nat} (hlink : s.dev.hostp.link = true)
    (hready : spdmReady s.dev = true) (hslot : slot < 8) (hchain : certChain s.dev slot ≠ [])
    (hoffset : offset < (certChain s.dev slot).length) (length : Nat) :
    execGetCertificate slot offset length s =
      .next { s with dev := spdmSay (((certChain s.dev slot).drop offset).take length) s.dev } := by
  refine onDev_next rfl ((spdmAfter_runs hlink hready _).trans ?_)
  simp [not_le.2 hslot, hchain, not_le.2 hoffset]

theorem execChallenge_answers {s : State} {slot : Nat} {nonce : BitVec 256} {sig : List Byte × Dev}
    (hlink : s.dev.hostp.link = true) (hready : spdmReady s.dev = true) (hslot : slot < 8)
    (hchain : certChain s.dev slot ≠ [])
    (hsig : sig = spdmSign s.fuse (leBytes 32 nonce.toNat ++ sm3Bytes (certChain s.dev slot)) s.dev) :
    execChallenge slot nonce s = .next { s with dev := spdmSay (sm3Bytes (certChain s.dev slot) ++ sig.1) sig.2 } := by
  subst hsig
  refine onFuse_next rfl ((spdmAfter_runs hlink hready _).trans (if_neg ?_))
  simp [not_le.2 hslot, hchain]

theorem execGetMeasurements_answers {s : State} {index : Nat} {sign : Bool} {nonce : BitVec 256} {is : List Nat}
    {bs : List Byte} {sig : List Byte × Dev} (hlink : s.dev.hostp.link = true) (hready : spdmReady s.dev = true)
    (hindex : index ≤ 6 ∨ index = 255)
    (his : is = (if index = 255 then [1, 2, 3, 4, 5, 6] else if index = 0 then [] else [index]))
    (hbs : bs = leBytes 1 (if index = 0 then 6 else is.length)
      ++ is.flatMap (fun i => leBytes 1 i ++ measurement s.fuse s.dev i))
    (hsig : sig = spdmSign s.fuse (leBytes 32 nonce.toNat ++ bs) s.dev) :
    execGetMeasurements index sign nonce s =
      .next { s with dev := if sign then spdmSay (bs ++ sig.1) sig.2 else spdmSay bs s.dev } := by
  have hknown : ¬ (6 < index ∧ index ≠ 255) := by omega
  refine onFuse_next rfl ((spdmAfter_runs hlink hready _).trans ((if_neg hknown).trans ?_))
  subst hsig hbs his
  rfl

theorem setChain_writes {slot : Nat} (hfirst : 1 ≤ slot) (hlast : slot ≤ 7) (chain : List Byte) (d : Dev) :
    setChain slot chain d =
      spdmSay [] { d with flash := { d.flash with certs := mapPut [] slot chain d.flash.certs } } :=
  if_pos ⟨hfirst, hlast⟩

/-! ### Chunks -/

/-- A piece is in order where it is the first or the next of its message. -/
theorem chunkTake_inOrder {handle seqNo : Nat} {d : Dev}
    (h : seqNo = 0 ∨ (d.spdm.chunkHandle = handle ∧ d.spdm.chunkNext = seqNo)) :
    ¬ (seqNo ≠ 0 ∧ (d.spdm.chunkHandle ≠ handle ∨ d.spdm.chunkNext ≠ seqNo)) := by
  omega

theorem chunkTake_more {handle seqNo : Nat} {d : Dev}
    (h : seqNo = 0 ∨ (d.spdm.chunkHandle = handle ∧ d.spdm.chunkNext = seqNo)) (bytes : List Byte) :
    chunkTake handle seqNo false bytes d = spdmSay [] { d with spdm := { d.spdm with
      chunkHandle := handle, chunkNext := seqNo + 1
      chunkIn := (if seqNo = 0 then [] else d.spdm.chunkIn) ++ bytes } } :=
  if_neg (chunkTake_inOrder h)

theorem chunkTake_last {handle seqNo : Nat} {bytes all : List Byte} {d e : Dev}
    (h : seqNo = 0 ∨ (d.spdm.chunkHandle = handle ∧ d.spdm.chunkNext = seqNo))
    (hall : all = (if seqNo = 0 then [] else d.spdm.chunkIn) ++ bytes)
    (he : e = { d with spdm := { d.spdm with chunkHandle := handle, chunkNext := 0, chunkIn := [] } }) :
    chunkTake handle seqNo true bytes d =
      if leAt all 1 1 = 0xEE then setChain (leAt all 2 1 % 16) (all.drop 4) e else spdmError 7 e := by
  subst hall he
  exact if_neg (chunkTake_inOrder h)

theorem chunkGive_gives {d : Dev} (h : d.spdm.chunkOut ≠ []) :
    chunkGive d.spdm.chunkHandle d.spdm.chunkNext d = { d with spdm := { d.spdm with
      error := false, errorCode := 0, reply := d.spdm.chunkOut.take spdmPiece
      chunkNext := d.spdm.chunkNext + 1, chunkOut := d.spdm.chunkOut.drop spdmPiece } } :=
  if_neg (by simp [h])

/-- Settles O43, from the order of the requests and the answer of each. -/
theorem spdmAnswers : Obligations.SpdmAnswers := by
  intro s hlink
  refine ⟨?_, fun hversion => ⟨?_, fun hcaps a b c => ?_⟩, fun hversion => ?_, fun a b c hearly => ?_,
    fun i hearly hi => spdmRequest_early hlink hearly hi, fun hready => ?_, fun code => ?_⟩
  · show execGetVersion s = _
    exact onDev_next rfl (spdmAfter_runs hlink rfl _)
  · show execGetCapabilities s = _
    exact onDev_next rfl (spdmAfter_runs hlink hversion _)
  · show execNegotiateAlgorithms a b c s = _
    exact onDev_next rfl (spdmAfter_runs hlink (by simp [hversion, hcaps]) _)
  · show execGetCapabilities s = _
    exact onDev_next rfl (spdmAfter_early hlink hversion _)
  · have hnot : (s.dev.spdm.version && s.dev.spdm.caps) = false := by
      rcases hearly with h | h <;> simp [h]
    show execNegotiateAlgorithms a b c s = _
    exact onDev_next rfl (spdmAfter_early hlink hnot _)
  · have run := spdmAfter_runs hlink hready
    refine ⟨?_, fun slot hslot hchain => ⟨fun offset length hoffset => ?_, fun nonce sig hsig => ?_⟩,
      fun index sign nonce is bs sig hindex his hbs hsig => ?_, fun slot chain hfirst hlast => ?_,
      fun handle seqNo bytes horder => ?_, fun handle seqNo bytes all d horder hall hd => ?_, fun hout => ?_⟩
    · show execGetDigests s = _
      exact onDev_next rfl (run _)
    · exact execGetCertificate_answers hlink hready hslot hchain hoffset length
    · exact execChallenge_answers hlink hready hslot hchain hsig
    · exact execGetMeasurements_answers hlink hready hindex his hbs hsig
    · exact onDev_next rfl ((run _).trans (setChain_writes hfirst hlast chain s.dev))
    · exact onDev_next rfl ((run _).trans (chunkTake_more horder bytes))
    · exact onDev_next rfl ((run _).trans (chunkTake_last horder hall hd))
    · exact onDev_next rfl ((run _).trans (chunkGive_gives hout))
  · show execUnsupportedRequest code s = _
    exact onDev_next rfl (spdmAfter_runs hlink rfl _)

end Sys2Proof.Machine
end
